-- ==== Sys2Proof/Word.lean ====
section
/-! DEFINITION. The words of the SGT-6416: bytes of the link, instants of the timebase, durations and counts. -/

namespace Sys2Proof

/-- One byte of a frame (R139). -/
abbrev Byte := BitVec 8

/-- An instant: a 32-bit tick value (00_scope.md, "Time arithmetic"; R4). -/
abbrev Instant := BitVec 32

/-- A duration D, W or P: 0 to 16,777,215 ticks (Table 2-1). -/
abbrev Ticks := BitVec 24

/-- A count N, `cycles done` or `runs completed`: 0 to 65,535 (Table 2-1). -/
abbrev Count := BitVec 16

/-- A set of lanes: bit n stands for lane n (Table 10-5). -/
abbrev LaneGroup := BitVec 16

end Sys2Proof
end

