-- ==== Sys2Proof/Syntax.lean ====
section
/-! DEFINITION. The commands of the SGT-6416: one constructor per row of spec/opcode_table.json, with the row's operands. -/

namespace Sys2Proof

/-- The level of an input pin, read as a logic level (R84, R128). -/
inductive Level where
  | low
  | high
  deriving DecidableEq, Repr

/-- A trip source that has an input (R127). -/
inductive TripInput where
  | a
  | b
  deriving DecidableEq, Repr

/-- One part of the work of a tick event (R2): the dispatch, the sample of one trigger line, the countdown of one
strobe line. The timebase ranks none before another, so TICK_EVENT carries the order in which they are taken. -/
inductive TickUnit where
  | dispatch
  | sample (line : Fin 8)
  | countdown (strobe : Fin 4)
  deriving DecidableEq, Repr

/-- The five bytes of a start block as they stand in the frame (Table 10-7). -/
structure StartBlock where
  b0 : Byte
  b1 : Byte
  b2 : Byte
  b3 : Byte
  b4 : Byte
  deriving DecidableEq, Repr

/-- The commands. An event carries what it brings from outside the part; a request carries its tag (R141) and the
fields of its payload as the bytes of chapter 10. -/
inductive Instr where
  /-- POWER_ON (R3): supply is applied and power-on reset ends. -/
  | powerOn
  /-- RESET_N_ASSERT (R153): RESET_N falls. -/
  | resetNAssert
  /-- RESET_N_RELEASE (R3): RESET_N rises. -/
  | resetNRelease
  /-- TICK_EVENT (R1): the tick in progress ends. Bit n of `levels` is the level of TRGn at the CLK edge that ends it
  (R84, 1 for HIGH); `order` lists the parts of the tick event taken in this step, in the order taken. -/
  | tickEvent (levels : BitVec 8) (order : List TickUnit)
  /-- OVERRUN (R71): the overrun step of the dispatch in progress takes the item at the head of the due list. -/
  | overrun
  /-- ACTION (R43): the action step of the dispatch in progress hands over one item. -/
  | action
  /-- STROBE_PULSE_END (R110): the countdown of a strobe line in the tick event in progress reaches zero. -/
  | strobePulseEnd (strobe : Fin 4)
  /-- TRIGGER_SAMPLE (R82): the sample a trigger line takes in the tick event in progress reads `level`. -/
  | triggerSample (line : Fin 8) (level : Level)
  /-- QUALIFIED_EDGE (R83): that sample is the K-th differing one, and the change is offered to edge qualification. -/
  | qualifiedEdge (line : Fin 8)
  /-- TRIP_INPUT_ACTIVE (R129): K consecutive samples of the source's input read ACTIVE. -/
  | tripInputActive (source : TripInput)
  /-- TRIP_INPUT_INACTIVE (R129): K consecutive samples of the source's input read INACTIVE. -/
  | tripInputInactive (source : TripInput)
  /-- CS_N_FALL (R140). -/
  | csNFall
  /-- CS_N_RISE (R143). -/
  | csNRise
  /-- EXECUTION_END (R146). -/
  | executionEnd
  /-- NOP (R151). -/
  | nop (tag : Byte)
  /-- READ_TIME (R8). -/
  | readTime (tag : Byte)
  /-- SET_TIME (R10). -/
  | setTime (tag : Byte) (value : Instant)
  /-- SET_DIVIDER (R12). -/
  | setDivider (tag : Byte) (value : BitVec 16)
  /-- DEFINE (R20), Table 10-6. -/
  | define (tag entry lane : Byte) (delay width period : Ticks) (count : Count) (strobe notify : Byte)
  /-- SCHEDULE (R22), Table 10-7. -/
  | schedule (tag entry kind : Byte) (block : StartBlock)
  /-- SCHEDULE_SET (R125): member count, start kind, start block and the member numbers (R158). -/
  | scheduleSet (tag count kind : Byte) (block : StartBlock) (members : List Byte)
  /-- AMEND (R56), Table 10-8. -/
  | amend (tag entry mask : Byte) (delay width period : Ticks) (count : Count)
  /-- DRAIN (R59). -/
  | drain (tag entry : Byte)
  /-- CANCEL (R62). -/
  | cancel (tag entry : Byte)
  /-- QUERY (R33). -/
  | query (tag entry : Byte)
  /-- ACK (R34). -/
  | ack (tag entry : Byte)
  /-- RELEASE (R35). -/
  | release (tag entry : Byte)
  /-- SUMMARY (R150). -/
  | summary (tag : Byte)
  /-- TRIGGER_CONFIG (R95), R162. -/
  | triggerConfig (tag line edge sampleDivider depth : Byte)
  /-- LANE_CONFIG (R104), R163. -/
  | laneConfig (tag lane polarity safeLevel : Byte)
  /-- LANE_SET (R105), R163. -/
  | laneSet (tag lane value : Byte)
  /-- LANE_QUERY (R107), R163. -/
  | laneQuery (tag lane : Byte)
  /-- STROBE_CONFIG (R112), R162. -/
  | strobeConfig (tag strobe width : Byte)
  /-- TRIP_CONFIG (R137), R164. -/
  | tripConfig (tag source enabled activeLevel depth : Byte) (group : LaneGroup)
  /-- TRIP (R135), R164. -/
  | trip (tag : Byte) (group : LaneGroup)
  /-- CLEAR_TRIP (R136), R164. -/
  | clearTrip (tag source : Byte)
  /-- SOFT_RESET (R152). -/
  | softReset (tag : Byte)
  /-- TRIP_FILTER_SAMPLE (R128): the source's input reads `level` at a CLK edge. -/
  | tripFilterSample (source : TripInput) (level : Level)
  /-- BYTE_RECEIVED (R139): a byte is received whole. -/
  | byteReceived (byte : Byte)
  deriving DecidableEq, Repr

end Sys2Proof
end

