-- ==== Sys2Proof/Config.lean ====
section
/-! DEFINITION. What the part fixes, and the one thing the model leaves free. -/

namespace Sys2Proof.Config

/-- Items the action step of one dispatch can hand over (R73). -/
def actionCapacity : Nat := 4

/-- The greatest lateness at which an item is still handed over (R71). -/
def overrunLimit : Nat := 255

/-- CLK periods within which an execution ends (R146). -/
def executionBound : Nat := 160

/-- Bytes of a transaction that are kept (R139). -/
def keptBytes : Nat := 64

/-- The longest payload of a frame (R141). -/
def longestPayload : Nat := 60

/-- One part of what happens at a CLK edge: the timebase's count, the samples of both trip inputs, and the edge an execution
has lasted. The samples of A and B are one part, since their trips of one edge end the same in either order (R133; log
entry 25). -/
inductive EdgeUnit where
  | timebase
  | tripSamples
  | execution
  deriving DecidableEq, Repr

/-- FREE. The order in which the events of the n-th CLK edge of an empty queue are taken: any of them may be first
(R2, R129, R133, R146). No body, so nothing can be proved of its value (log entry 4). -/
opaque edgeOrder : Nat → List EdgeUnit

/-- FREE. The order in which the parts of a tick event that ends on the n-th such edge are taken (R2, R93, R110; log
entry 4). -/
opaque tickOrder : Nat → List TickUnit

end Sys2Proof.Config
end

