-- ==== Sys2Proof/WellFormed.lean ====
section
/-! DEFINITION. When a command is well formed. Every field that a byte carries is judged by the part itself (chapter 10);
what is checked here is what no event or frame can carry. -/

namespace Sys2Proof

/-- The greatest number of member bytes a SCHEDULE_SET frame can hold (R158). -/
def maxMembers : Nat := 53

/-- Each part of a tick event is taken once (R2). -/
def tickOrderOk (order : List TickUnit) : Bool := decide order.Nodup

/-- The members of a SCHEDULE_SET fit the longest frame (R158). -/
def membersFit (members : List Byte) : Bool := members.length ≤ maxMembers

/-- The checks of a command, constructor by constructor. -/
def Instr.wellFormed : Instr → Bool
  | .tickEvent _ order => tickOrderOk order
  | .scheduleSet _ _ _ _ members => membersFit members
  | .powerOn | .resetNAssert | .resetNRelease | .overrun | .action | .csNFall | .csNRise | .executionEnd => true
  | .strobePulseEnd _ | .qualifiedEdge _ | .tripInputActive _ | .tripInputInactive _ | .byteReceived _ => true
  | .triggerSample _ _ | .tripFilterSample _ _ => true
  | .nop _ | .readTime _ | .summary _ | .softReset _ => true
  | .setTime _ _ | .setDivider _ _ | .trip _ _ => true
  | .drain _ _ | .cancel _ _ | .query _ _ | .ack _ _ | .release _ _ | .laneQuery _ _ | .clearTrip _ _ => true
  | .laneSet _ _ _ | .strobeConfig _ _ _ => true
  | .laneConfig _ _ _ _ | .schedule _ _ _ _ => true
  | .triggerConfig _ _ _ _ _ => true
  | .tripConfig _ _ _ _ _ _ => true
  | .amend _ _ _ _ _ _ _ => true
  | .define _ _ _ _ _ _ _ _ _ => true

end Sys2Proof
end

