-- ==== Sys2Proof/Decode.lean ====
section
/-! DEFINITION. Frames as bytes: the CRC-8 (R142), the layout of a frame (R141), the requests a frame carries (chapter 10)
and the frame of a request; and the host's two fixed names over the table's bits, of which the table gives none. -/

namespace Sys2Proof

/-! ### Bytes of multi-byte fields, most significant byte first (R154) -/

/-- The 16-bit value of two bytes. -/
def ofBytes2 (b1 b0 : Byte) : BitVec 16 := b1 ++ b0

/-- The 24-bit value of three bytes. -/
def ofBytes3 (b2 b1 b0 : Byte) : BitVec 24 := b2 ++ b1 ++ b0

/-- The 32-bit value of four bytes. -/
def ofBytes4 (b3 b2 b1 b0 : Byte) : BitVec 32 := b3 ++ b2 ++ b1 ++ b0

/-- A 16-bit field as two bytes. -/
def bytes2 (x : BitVec 16) : List Byte := [x.extractLsb' 8 8, x.extractLsb' 0 8]

/-- A 24-bit field as three bytes. -/
def bytes3 (x : BitVec 24) : List Byte := [x.extractLsb' 16 8, x.extractLsb' 8 8, x.extractLsb' 0 8]

/-- A 32-bit field as four bytes. -/
def bytes4 (x : BitVec 32) : List Byte :=
  [x.extractLsb' 24 8, x.extractLsb' 16 8, x.extractLsb' 8 8, x.extractLsb' 0 8]

/-- A 64-bit entry set as eight bytes (R165). -/
def bytes8 (x : BitVec 64) : List Byte :=
  [x.extractLsb' 56 8, x.extractLsb' 48 8, x.extractLsb' 40 8, x.extractLsb' 32 8,
    x.extractLsb' 24 8, x.extractLsb' 16 8, x.extractLsb' 8 8, x.extractLsb' 0 8]

/-! ### CRC-8 -/

/-- One shift of the remainder: left by one bit, combined with 0x07 when the bit shifted out was 1 (R142). -/
def crcShift (r : Byte) : Byte := if r.msb then (r <<< 1) ^^^ 0x07#8 else r <<< 1

/-- The remainder after one more byte (R142). -/
def crcByte (r b : Byte) : Byte :=
  crcShift (crcShift (crcShift (crcShift (crcShift (crcShift (crcShift (crcShift (r ^^^ b))))))))

/-- The CRC-8 of a sequence of bytes: initial remainder 0x00, no final inversion (R142). -/
def crc8 (bytes : List Byte) : Byte := bytes.foldl crcByte 0

/-- A whole frame: code or status, tag, length, payload, CRC (R141, Table 10-1). -/
def frameOf (code tag : Byte) (payload : List Byte) : List Byte :=
  let body := code :: tag :: BitVec.ofNat 8 payload.length :: payload
  body ++ [crc8 body]

/-! ### Request codes (Table 10-2) -/

/-- The codes that name a request of the part. -/
def requestCodes : List Byte :=
  [0x00, 0x01, 0x02, 0x03, 0x10, 0x11, 0x12, 0x13, 0x14, 0x15, 0x16, 0x17, 0x18, 0x19, 0x20, 0x28, 0x29, 0x2A, 0x2C,
    0x30, 0x31, 0x32, 0x3F]

/-- The request that a code, a tag and a payload spell; none where the code names no request, or where the payload's
length is not the one chapter 10 gives for the code (R144; for SCHEDULE_SET the one its item count calls for, R158). -/
def requestOf (code tag : Byte) (payload : List Byte) : Option Instr :=
  match code.toNat, payload with
  | 0x00, [] => some (.nop tag)
  | 0x01, [] => some (.readTime tag)
  | 0x02, [b3, b2, b1, b0] => some (.setTime tag (ofBytes4 b3 b2 b1 b0))
  | 0x03, [b1, b0] => some (.setDivider tag (ofBytes2 b1 b0))
  | 0x10, [e, l, d2, d1, d0, w2, w1, w0, p2, p1, p0, n1, n0, st, nt] =>
    some (.define tag e l (ofBytes3 d2 d1 d0) (ofBytes3 w2 w1 w0) (ofBytes3 p2 p1 p0) (ofBytes2 n1 n0) st nt)
  | 0x11, [e, k, b0, b1, b2, b3, b4] => some (.schedule tag e k ⟨b0, b1, b2, b3, b4⟩)
  | 0x12, c :: k :: b0 :: b1 :: b2 :: b3 :: b4 :: members =>
    if members.length = c.toNat then some (.scheduleSet tag c k ⟨b0, b1, b2, b3, b4⟩ members) else none
  | 0x13, [e, m, d2, d1, d0, w2, w1, w0, p2, p1, p0, n1, n0] =>
    some (.amend tag e m (ofBytes3 d2 d1 d0) (ofBytes3 w2 w1 w0) (ofBytes3 p2 p1 p0) (ofBytes2 n1 n0))
  | 0x14, [e] => some (.drain tag e)
  | 0x15, [e] => some (.cancel tag e)
  | 0x16, [e] => some (.query tag e)
  | 0x17, [e] => some (.ack tag e)
  | 0x18, [e] => some (.release tag e)
  | 0x19, [] => some (.summary tag)
  | 0x20, [l, e, sd, k] => some (.triggerConfig tag l e sd k)
  | 0x28, [l, p, sl] => some (.laneConfig tag l p sl)
  | 0x29, [l, v] => some (.laneSet tag l v)
  | 0x2A, [l] => some (.laneQuery tag l)
  | 0x2C, [l, w] => some (.strobeConfig tag l w)
  | 0x30, [src, en, al, k, g1, g0] => some (.tripConfig tag src en al k (ofBytes2 g1 g0))
  | 0x31, [g1, g0] => some (.trip tag (ofBytes2 g1 g0))
  | 0x32, [src] => some (.clearTrip tag src)
  | 0x3F, [] => some (.softReset tag)
  | _, _ => none

/-- The tag of a request (R141); 0 for an event, which has none. -/
def Instr.tag : Instr → Byte
  | .nop t | .readTime t | .summary t | .softReset t => t
  | .setTime t _ | .setDivider t _ | .trip t _ => t
  | .drain t _ | .cancel t _ | .query t _ | .ack t _ | .release t _ | .laneQuery t _ | .clearTrip t _ => t
  | .laneSet t _ _ | .strobeConfig t _ _ => t
  | .laneConfig t _ _ _ | .schedule t _ _ _ => t
  | .scheduleSet t _ _ _ _ | .triggerConfig t _ _ _ _ => t
  | .tripConfig t _ _ _ _ _ => t
  | .amend t _ _ _ _ _ _ => t
  | .define t _ _ _ _ _ _ _ _ => t
  | .powerOn | .resetNAssert | .resetNRelease | .overrun | .action | .csNFall | .csNRise | .executionEnd => 0
  | .tickEvent _ _ | .triggerSample _ _ | .tripFilterSample _ _ => 0
  | .strobePulseEnd _ | .qualifiedEdge _ | .tripInputActive _ | .tripInputInactive _ | .byteReceived _ => 0

/-- The five bytes of a start block. -/
def StartBlock.bytes (b : StartBlock) : List Byte := [b.b0, b.b1, b.b2, b.b3, b.b4]

/-- The code and the payload of a request, by the layouts of chapter 10; none for an event, which no frame carries. -/
def Instr.codeAndPayload : Instr → Option (Byte × List Byte)
  | .nop _ => some (0x00, [])
  | .readTime _ => some (0x01, [])
  | .setTime _ v => some (0x02, bytes4 v)
  | .setDivider _ m => some (0x03, bytes2 m)
  | .define _ e l d w p n st nt => some (0x10, [e, l] ++ bytes3 d ++ bytes3 w ++ bytes3 p ++ bytes2 n ++ [st, nt])
  | .schedule _ e k b => some (0x11, [e, k] ++ b.bytes)
  | .scheduleSet _ c k b members => some (0x12, [c, k] ++ b.bytes ++ members)
  | .amend _ e m d w p n => some (0x13, [e, m] ++ bytes3 d ++ bytes3 w ++ bytes3 p ++ bytes2 n)
  | .drain _ e => some (0x14, [e])
  | .cancel _ e => some (0x15, [e])
  | .query _ e => some (0x16, [e])
  | .ack _ e => some (0x17, [e])
  | .release _ e => some (0x18, [e])
  | .summary _ => some (0x19, [])
  | .triggerConfig _ l e sd k => some (0x20, [l, e, sd, k])
  | .laneConfig _ l p sl => some (0x28, [l, p, sl])
  | .laneSet _ l v => some (0x29, [l, v])
  | .laneQuery _ l => some (0x2A, [l])
  | .strobeConfig _ l w => some (0x2C, [l, w])
  | .tripConfig _ src en al k g => some (0x30, [src, en, al, k] ++ bytes2 g)
  | .trip _ g => some (0x31, bytes2 g)
  | .clearTrip _ src => some (0x32, [src])
  | .softReset _ => some (0x3F, [])
  | .powerOn | .resetNAssert | .resetNRelease | .overrun | .action | .csNFall | .csNRise | .executionEnd => none
  | .tickEvent _ _ | .triggerSample _ _ | .tripFilterSample _ _ => none
  | .strobePulseEnd _ | .qualifiedEdge _ | .tripInputActive _ | .tripInputInactive _ | .byteReceived _ => none

/-- The request frame of a command; none for an event. -/
def Instr.frame (i : Instr) : Option (List Byte) := i.codeAndPayload.map fun cp => frameOf cp.1 i.tag cp.2

/-! ### The judgement of received bytes (R143, R144) -/

/-- What the bytes of an ORDINARY transaction are judged to be (Table 9-3). A frame of the wrong length for its known
code is refused PARAM_RANGE before it reaches an owner (R144). -/
inductive Judgement where
  | ignored
  | frameError (tag : Byte)
  | badRequest (tag : Byte)
  | wrongLength (tag : Byte)
  | executed (request : Instr)
  deriving DecidableEq, Repr

/-- The tag of a FRAME_ERROR: the second byte received, or 0 when there is only one (R144). -/
def frameErrorTag (bytes : List Byte) : Byte := bytes.getD 1 0

/-- Judge a whole frame with a correct CRC (R143, R144). -/
def judgeWhole (code tag : Byte) (payload : List Byte) : Judgement :=
  if requestCodes.contains code then
    match requestOf code tag payload with
    | some i => .executed i
    | none => .wrongLength tag
  else .badRequest tag

/-- Judge the bytes of an ORDINARY transaction: `count` whole bytes were received, of which `bytes` were kept (R143). -/
def judge (count : Nat) (bytes : List Byte) : Judgement :=
  if count = 0 then .ignored
  else match bytes with
    | code :: tag :: len :: rest =>
      if 60 < len.toNat then .frameError tag
      else if count < len.toNat + 4 then .frameError tag
      else
        let payload := rest.take len.toNat
        if crc8 (code :: tag :: len :: payload) = rest.getD len.toNat 0 then judgeWhole code tag payload
        else .frameError tag
    | _ => .frameError (frameErrorTag bytes)

/-! ### The host's fixed name -/

/-- The command that a word spells by the table's bits. No row of spec/opcode_table.json gives bits, so no word spells
a command (log entry 20). -/
def decodeTableWord (_nbits _w : Nat) : Option Instr := none

end Sys2Proof
end

