-- ==== Sys2Proof/Machine/State.lean ====
section
/-! DEFINITION. The state of the SGT-6416: every record of Tables 1 to 9 of the manual, the pins, and the queue of commands
that wait. Levels that the manual derives from a record (a lane's `present level`, ATTN_N, the strobe pins, SDO) are functions
of this state, in Machine/Flags.lean. -/

namespace Sys2Proof.Machine

/-! ### The entry record (Tables 2-1 and 2-2) -/

/-- `state` of an entry (section 2.1). -/
inductive EntryState where
  | free
  | idle
  | pending
  | running
  | draining
  | done
  deriving DecidableEq, Repr

/-- `phase` of a running entry (R40). -/
inductive Phase where
  | delay
  | active
  | rest
  deriving DecidableEq, Repr

/-- The instant of a cycle at which an entry requests its strobe (R46). -/
inductive StrobePoint where
  | start
  | active
  | inactive
  deriving DecidableEq, Repr

/-- `strobe` of a programme: a strobe line and a point (Table 2-1). -/
structure StrobeUse where
  line : Fin 4
  point : StrobePoint
  deriving DecidableEq, Repr

/-- `mode` of an ON_TRIGGER start (Table 2-2). -/
inductive Mode where
  | once
  | every
  deriving DecidableEq, Repr

/-- `retrigger` of an ON_TRIGGER start (Table 2-2). -/
inductive Retrigger where
  | ignore
  | restart
  | holdOne
  deriving DecidableEq, Repr

/-- The start part of an entry (Table 2-2). -/
inductive Start where
  | atTime (instant : Instant) (lateOk : Bool)
  | onTrigger (line : Fin 8) (mode : Mode) (retrigger : Retrigger)
  | after (named : Fin 64)
  deriving DecidableEq, Repr

/-- The programme of an entry, written whole by DEFINE (Table 2-1). -/
structure Programme where
  lane : Option (Fin 16)
  delay : Ticks
  width : Ticks
  period : Ticks
  count : Count
  strobe : Option StrobeUse
  notify : Bool
  deriving DecidableEq, Repr

/-- The cleared values of a programme (Table 2-1). -/
def Programme.cleared : Programme :=
  { lane := none, delay := 0, width := 0, period := 0, count := 0, strobe := none, notify := false }

/-- `staged`: absent exactly when all three are absent (Table 2-1: a non-empty subset of D, W, P). -/
structure Staged where
  delay : Option Ticks
  width : Option Ticks
  period : Option Ticks
  deriving DecidableEq, Repr

/-- `staged` absent. -/
def Staged.none : Staged := { delay := Option.none, width := Option.none, period := Option.none }

/-- The `flags` set of an entry (R17). -/
structure EntryFlags where
  lateStart : Bool
  strobeMerged : Bool
  stagedDiscarded : Bool
  deriving DecidableEq, Repr

/-- The empty `flags` set. -/
def EntryFlags.empty : EntryFlags := { lateStart := false, strobeMerged := false, stagedDiscarded := false }

/-- `outcome` of a DONE entry (Table 2-5). -/
inductive EntryOutcome where
  | completed
  | drained
  | cancelled
  | tripped
  | overrun
  | chainBroken
  deriving DecidableEq, Repr

/-- One record of the entry table (Table 2-1). -/
structure Entry where
  state : EntryState
  prog : Programme
  start : Option Start
  phase : Phase
  cycleStart : Instant
  nextInstant : Instant
  cyclesDone : Count
  runsCompleted : Count
  heldTrigger : Option Instant
  staged : Staged
  predecessor : Option (Fin 64)
  successor : Option (Fin 64)
  missedTriggers : Byte
  worstSkew : Byte
  flags : EntryFlags
  outcome : Option EntryOutcome
  retiredAt : Option Instant
  deriving DecidableEq, Repr

/-- A FREE entry: every field at its cleared value (Table 2-1, R36). -/
def Entry.free : Entry where
  state := .free
  prog := Programme.cleared
  start := none
  phase := .delay
  cycleStart := 0
  nextInstant := 0
  cyclesDone := 0
  runsCompleted := 0
  heldTrigger := none
  staged := Staged.none
  predecessor := none
  successor := none
  missedTriggers := 0
  worstSkew := 0
  flags := EntryFlags.empty
  outcome := none
  retiredAt := none

/-! ### The due list and the dispatch in progress (Table 4-1) -/

/-- An item of the due list (R65). -/
structure DueItem where
  due : Instant
  entry : Fin 64
  deriving DecidableEq, Repr

/-- A dispatch in progress: the entries handed in it (their number is the count of actions handed, since an entry is handed
at most one action in a dispatch, R73), and the entries whose item the dispatch passes over (R72, R74). -/
structure DispatchWork where
  handed : List (Fin 64)
  passed : List (Fin 64)
  deriving DecidableEq, Repr

/-! ### Trigger lines (Table 5-1) -/

/-- `edge` of a trigger line (R83). -/
inductive EdgeSelect where
  | none
  | rising
  | falling
  | both
  deriving DecidableEq, Repr

/-- One trigger line record. `sampleDue` is the model's own: the tick event in progress still owes the line its sample
(log entry 3). -/
structure TriggerLine where
  edge : EdgeSelect
  sampleDivider : Nat
  depth : Nat
  sampleCount : Nat
  accepted : Option Level
  runLength : Nat
  subs : List (Fin 64)
  sampleDue : Bool
  deriving DecidableEq, Repr

/-- A trigger line after reset (R97, Table 5-7). -/
def TriggerLine.reset : TriggerLine where
  edge := .none
  sampleDivider := 1
  depth := 3
  sampleCount := 0
  accepted := Option.none
  runLength := 0
  subs := []
  sampleDue := false

/-! ### Lanes and strobe lines (Tables 6-1 and 6-5) -/

/-- `polarity` of a lane (R98). -/
inductive Polarity where
  | activeHigh
  | activeLow
  deriving DecidableEq, Repr

/-- What a lane pin shows: driven LOW, driven HIGH, or undriven (R98). -/
inductive PinLevel where
  | low
  | high
  | float
  deriving DecidableEq, Repr

/-- `call`: the level the owner calls for (R98, R102). -/
inductive Call where
  | inactive
  | active
  deriving DecidableEq, Repr

/-- `forced`: a level relative to polarity (R98, R105). -/
inductive Forced where
  | active
  | inactive
  | float
  deriving DecidableEq, Repr

/-- A trip source (section 8.1). -/
inductive TripId where
  | a
  | b
  | soft
  deriving DecidableEq, Repr

/-- `tripped-by`: the set of sources that hold a lane (R131, R133). -/
structure TrippedBy where
  a : Bool
  b : Bool
  soft : Bool
  deriving DecidableEq, Repr

/-- The empty `tripped-by` set. -/
def TrippedBy.empty : TrippedBy := { a := false, b := false, soft := false }

/-- One lane record (Table 6-1), less the derived `present level`. -/
structure Lane where
  polarity : Polarity
  safeLevel : PinLevel
  owner : Option (Fin 64)
  call : Call
  heir : Option (Fin 64)
  forced : Option Forced
  trippedBy : TrippedBy
  deriving DecidableEq, Repr

/-- A lane after reset (R108, Table 6-3). -/
def Lane.reset : Lane where
  polarity := .activeHigh
  safeLevel := .low
  owner := none
  call := .inactive
  heir := none
  forced := none
  trippedBy := TrippedBy.empty

/-- One strobe line record (Table 6-5). `countdownDue` is the model's own: the tick event in progress still owes the
line its countdown (log entry 3). -/
structure StrobeLine where
  width : Nat
  remaining : Nat
  countdownDue : Bool
  deriving DecidableEq, Repr

/-- A strobe line after reset (R114, Table 6-6). -/
def StrobeLine.reset : StrobeLine := { width := 1, remaining := 0, countdownDue := false }

/-! ### Trip sources (Table 8-1) -/

/-- `state` of a trip source (Table 8-2). -/
inductive TripState where
  | quiet
  | held
  | latched
  deriving DecidableEq, Repr

/-- `input state` of source A or B (R128). -/
inductive InputState where
  | active
  | inactive
  deriving DecidableEq, Repr

/-- Source A or B. -/
structure TripSource where
  enabled : Bool
  activeLevel : Level
  depth : Nat
  group : LaneGroup
  inputState : InputState
  runLength : Nat
  state : TripState
  deriving DecidableEq, Repr

/-- Source A or B after reset (R138, Table 8-3). -/
def TripSource.reset : TripSource where
  enabled := false
  activeLevel := .low
  depth := 3
  group := 0
  inputState := .inactive
  runLength := 0
  state := .quiet

/-- Source SOFT, which has no input (section 8.1). -/
structure SoftSource where
  group : LaneGroup
  state : TripState
  deriving DecidableEq, Repr

/-- SOFT after reset (R138). -/
def SoftSource.reset : SoftSource := { group := 0, state := .quiet }

/-! ### The link controller (Table 9-1) -/

/-- The status of a response (Table 10-3). -/
inductive Status where
  | ok
  | entryState
  | paramRange
  | badEntry
  | laneBusy
  | laneForced
  | laneTripped
  | timePast
  | chainInvalid
  | setFailed
  | tripActive
  | timebaseBusy
  | badRequest
  | frameError
  | notReady
  | noResponse
  deriving DecidableEq, Repr

/-- What the owner of a request returns at its take point: status and payload (R146). -/
structure Answer where
  status : Status
  payload : List Byte
  deriving DecidableEq, Repr

/-- The transaction state (Table 9-1). -/
inductive Transaction where
  | closed
  | ordinary
  | discarding
  | waitHigh
  deriving DecidableEq, Repr

/-- What an execution holds until its end (R146): a judged request whose take point is still to come, or the answer to
put into the response, with its tag (R144). -/
inductive Execution where
  | waiting (request : Instr)
  | answered (tag : Byte) (answer : Answer)
  deriving DecidableEq, Repr

/-- The response buffer (R145). -/
inductive Buffer where
  | empty
  | executing (execution : Execution)
  | ready (frame : List Byte)
  deriving DecidableEq, Repr

/-- The link controller (Table 9-1). `received` belongs to the open transaction, and `outgoing` is the frame chosen at the last
CS_N fall (log entry 24). `age` counts the CLK periods an execution has lasted (R146, log entry 13). -/
structure Link where
  transaction : Transaction
  received : List Byte
  count : Nat
  outgoing : Option (List Byte)
  buffer : Buffer
  age : Nat
  deriving DecidableEq, Repr

/-- The link after reset with CS_N high (R153, Table 9-1). -/
def Link.reset : Link where
  transaction := .closed
  received := []
  count := 0
  outgoing := none
  buffer := .empty
  age := 0

/-! ### Input pins (Table 0-3) -/

/-- The input pins, at the level last present on them. -/
structure Pins where
  resetN : Level
  csN : Level
  trg : BitVec 8
  tripA : Level
  tripB : Level
  deriving DecidableEq, Repr

/-- The input pins right after reset: RESET_N has risen and CS_N is high; the other levels are the model's choice (log
entry 8). -/
def Pins.reset : Pins := { resetN := .high, csN := .high, trg := 0, tripA := .low, tripB := .low }

/-! ### The whole part -/

/-- The state of the part and the queue of commands that wait, first in, first out. `clkEdges` is the model's own: it
counts the CLK edges of the empty queue and indexes their free order (log entry 4). -/
structure State where
  pending : List Instr
  pins : Pins
  now : Instant
  divider : Nat
  tickLength : Nat
  tickPhase : Nat
  entries : Vector Entry 64
  due : List DueItem
  dispatch : Option DispatchWork
  lines : Vector TriggerLine 8
  lanes : Vector Lane 16
  strobes : Vector StrobeLine 4
  tripA : TripSource
  tripB : TripSource
  soft : SoftSource
  link : Link
  clkEdges : Nat
  deriving DecidableEq, Repr

/-- The part right after power-on or RESET_N, with CS_N high (R3, R36, R80, R97, R108, R114, R138, R145, R153). -/
def State.reset : State where
  pending := []
  pins := Pins.reset
  now := 0
  divider := 1
  tickLength := 1
  tickPhase := 0
  entries := Vector.replicate 64 Entry.free
  due := []
  dispatch := none
  lines := Vector.replicate 8 TriggerLine.reset
  lanes := Vector.replicate 16 Lane.reset
  strobes := Vector.replicate 4 StrobeLine.reset
  tripA := TripSource.reset
  tripB := TripSource.reset
  soft := SoftSource.reset
  link := Link.reset
  clkEdges := 0

/-- Why a step could stop. The spec describes nothing that stops the part: a request it will not carry out is answered
with a status (R154), and an event that cannot occur changes nothing (log entry 5). So no fault exists. -/
inductive Fault where
  deriving DecidableEq, Repr

/-- Why a command could be turned away by the model. No meaning raises it. -/
inductive Refusal where
  /-- Raised by `exec` alone, for a command that has no meaning yet; safe. No command is in this case. -/
  | notModelled (mnemonic : String)
  deriving DecidableEq, Repr

end Sys2Proof.Machine
end

