-- ==== Sys2Proof/Machine/Ops.lean ====
section
/-! DEFINITION. The named operations over the state: access to the records, the arithmetic of instants (chapter 1), the due
list (chapter 4), the subscription lists (chapter 5), and the lane and strobe records (chapter 6). -/

namespace Sys2Proof.Machine

/-! ### Access to the records -/

/-- The record of entry `e`. -/
def State.entry (s : State) (e : Fin 64) : Entry := s.entries[e.val]

/-- Write the record of entry `e`. -/
def State.setEntry (s : State) (e : Fin 64) (r : Entry) : State := { s with entries := s.entries.set e.val r }

/-- The record of trigger line `n`. -/
def State.line (s : State) (n : Fin 8) : TriggerLine := s.lines[n.val]

/-- Write the record of trigger line `n`. -/
def State.setLine (s : State) (n : Fin 8) (r : TriggerLine) : State := { s with lines := s.lines.set n.val r }

/-- The record of lane `l`. -/
def State.lane (s : State) (l : Fin 16) : Lane := s.lanes[l.val]

/-- Write the record of lane `l`. -/
def State.setLane (s : State) (l : Fin 16) (r : Lane) : State := { s with lanes := s.lanes.set l.val r }

/-- The record of strobe line `k`. -/
def State.strobe (s : State) (k : Fin 4) : StrobeLine := s.strobes[k.val]

/-- Write the record of strobe line `k`. -/
def State.setStrobe (s : State) (k : Fin 4) (r : StrobeLine) : State := { s with strobes := s.strobes.set k.val r }

/-- Source A or B. -/
def State.trip (s : State) : TripInput → TripSource
  | .a => s.tripA
  | .b => s.tripB

/-- Write source A or B. -/
def State.setTrip (s : State) (i : TripInput) (r : TripSource) : State :=
  match i with
  | .a => { s with tripA := r }
  | .b => { s with tripB := r }

/-- The trip source that watches an input. -/
def tripIdOf : TripInput → TripId
  | .a => .a
  | .b => .b

/-- Replace the due list. -/
def State.setDue (s : State) (due : List DueItem) : State := { s with due := due }

/-- Replace the dispatch in progress. -/
def State.setDispatch (s : State) (d : Option DispatchWork) : State := { s with dispatch := d }

/-- Replace the link controller's state. -/
def State.setLink (s : State) (l : Link) : State := { s with link := l }

/-- Replace the input pins' levels. -/
def State.setPins (s : State) (p : Pins) : State := { s with pins := p }

/-- Whether RESET_N holds the part in reset. -/
def State.inReset (s : State) : Bool := s.pins.resetN = .low

/-- An event or request reaches the part only while RESET_N is high (R3, R36, R153). -/
def State.whenRunning (s : State) (f : State → State) : State := if s.inReset then s else f s

/-! ### Saturating counters -/

/-- One more, stopping at the greatest value (R16, R44). -/
def satSucc {w : Nat} (x : BitVec w) : BitVec w := if x = BitVec.allOnes w then x else x + 1

/-! ### Instants (R4 to R7) -/

/-- The signed difference of an instant from `now` (R4). -/
def signedDiff (x now : Instant) : Int := (x - now).toInt

/-- X is past when its forward distance from `now` is 2^31 or more (R4; at exactly 2^31 R5 says otherwise, log entry 22). -/
def isPast (x now : Instant) : Bool := 2 ^ 31 ≤ (x - now).toNat

/-- The lateness of an instant (R6), which grows with `now`. R5 says otherwise of an instant beyond the horizon; the model
follows R4 and R6 (DESIGN CHOICE, log entry 22). -/
def lateness (x now : Instant) : Nat := if isPast x now then (now - x).toNat else 0

/-- At or before `now`. -/
def atOrBefore (x now : Instant) : Bool := x = now || isPast x now

/-- The skew of an action taken at tick `a` with nominal instant `t` (R7). -/
def skewOf (a t : Instant) : Nat := (a - t).toNat

/-! ### The due list (R65 to R69) -/

/-- The order of the due list: signed difference from `now`, then entry number (R66). -/
def DueItem.before (now : Instant) (i j : DueItem) : Bool :=
  signedDiff i.due now < signedDiff j.due now
    || (signedDiff i.due now = signedDiff j.due now && i.entry.val < j.entry.val)

/-- Put an item at the place its due instant and entry number give it (R66). -/
def insertInOrder (now : Instant) (i : DueItem) : List DueItem → List DueItem
  | [] => [i]
  | j :: rest => if i.before now j then i :: j :: rest else j :: insertInOrder now i rest

/-- The item of entry `e` leaves the list; nothing where it has none (R69). -/
def State.removeDue (s : State) (e : Fin 64) : State := s.setDue (s.due.filter fun i => decide (i.entry ≠ e))

/-- The item of entry `e`, due at its `next instant`, joins the list and replaces any item it has (R65, R68). -/
def State.joinDue (s : State) (e : Fin 64) : State :=
  s.setDue (insertInOrder s.now ⟨(s.entry e).nextInstant, e⟩ (s.due.filter fun i => decide (i.entry ≠ e)))

/-! ### Subscription lists (R85 to R87) -/

/-- Entry `e` joins the tail of line `n`'s list (R86). -/
def State.subscribe (s : State) (n : Fin 8) (e : Fin 64) : State :=
  s.setLine n { s.line n with subs := (s.line n).subs ++ [e] }

/-- Entry `e` leaves line `n`'s list; nothing where it is not in it (R87). -/
def State.unsubscribeFrom (s : State) (n : Fin 8) (e : Fin 64) : State :=
  s.setLine n { s.line n with subs := (s.line n).subs.filter fun x => decide (x ≠ e) }

/-- Entry `e` leaves the subscription list its start names (R28, R87). -/
def State.unsubscribe (s : State) (e : Fin 64) : State :=
  match (s.entry e).start with
  | some (.onTrigger n _ _) => s.unsubscribeFrom n e
  | _ => s

/-! ### Lanes (R98 to R103) -/

/-- Whether any source holds the lane (R99, R131). -/
def TrippedBy.any (t : TrippedBy) : Bool := t.a || t.b || t.soft

/-- A source joins the set. -/
def TrippedBy.add (t : TrippedBy) : TripId → TrippedBy
  | .a => { t with a := true }
  | .b => { t with b := true }
  | .soft => { t with soft := true }

/-- A source leaves the set. -/
def TrippedBy.remove (t : TrippedBy) : TripId → TrippedBy
  | .a => { t with a := false }
  | .b => { t with b := false }
  | .soft => { t with soft := false }

/-- Whether a source is in the set. -/
def TrippedBy.has (t : TrippedBy) : TripId → Bool
  | .a => t.a
  | .b => t.b
  | .soft => t.soft

/-- A lane without owner, heir and forced level, and with `call` INACTIVE (R103, R108, R131). -/
def Lane.unclaimed (l : Lane) : Lane := { l with owner := none, call := .inactive, heir := none, forced := none }

/-- The owner claim of an entry (R101). -/
def Lane.claimedBy (l : Lane) (e : Fin 64) : Lane := { l with owner := some e, call := .inactive }

/-- The lane's record after the retirement of entry `e`, when `taker` is the successor that a hand-off starts (R103):
an heir that is started becomes the owner; otherwise owner and heir go; an heir that retires leaves the owner. -/
def Lane.released (l : Lane) (e : Fin 64) (taker : Option (Fin 64)) : Lane :=
  if l.owner = some e then
    if l.heir ≠ none ∧ l.heir = taker then { l with owner := l.heir, call := .inactive, heir := none }
    else { l with owner := none, call := .inactive, heir := none }
  else if l.heir = some e then { l with heir := none }
  else l

/-- The retirement of entry `e` hands the lane unit the release of its claim; a silent entry releases no lane (R19, R103). -/
def State.releaseLane (s : State) (e : Fin 64) (taker : Option (Fin 64)) : State :=
  match (s.entry e).prog.lane with
  | some l => s.setLane l ((s.lane l).released e taker)
  | none => s

/-- A level handed by an event of entry `e` is written into `call` when the entry owns its lane (R102). -/
def State.handLevel (s : State) (e : Fin 64) (c : Call) : State :=
  match (s.entry e).prog.lane with
  | some l => if (s.lane l).owner = some e then s.setLane l { s.lane l with call := c } else s
  | none => s

/-! ### Strobe lines (R109 to R111) -/

/-- STROBE_MERGED is set on an entry (R111). -/
def Entry.strobeMerged (r : Entry) : Entry := { r with flags := { r.flags with strobeMerged := true } }

/-- A strobe request of entry `e` on line `k`: it starts a pulse on a LOW line and is merged on a HIGH one (R109, R111). -/
def State.strobeRequest (s : State) (k : Fin 4) (e : Fin 64) : State :=
  if (s.strobe k).remaining = 0 then
    s.setStrobe k { s.strobe k with remaining := (s.strobe k).width, countdownDue := false }
  else s.setEntry e (s.entry e).strobeMerged

/-- The strobe request of entry `e`, when its strobe point is served and it has a `strobe` (R46). -/
def State.serveStrobe (s : State) (e : Fin 64) (served : Bool) : State :=
  match (s.entry e).prog.strobe with
  | some u => if served then s.strobeRequest u.line e else s
  | none => s

/-- The countdown of strobe line `k` in the tick event in progress (R110). -/
def State.countdown (s : State) (k : Fin 4) : State :=
  if (s.strobe k).countdownDue then
    s.setStrobe k { s.strobe k with remaining := (s.strobe k).remaining - 1, countdownDue := false }
  else s

/-! ### Orders -/

/-- All of `all`, those named in `first` before the others, each once (an order operand or a free order made whole). -/
def orderedBy {α : Type} [DecidableEq α] (first all : List α) : List α :=
  let named := first.eraseDups.filter fun x => all.contains x
  named ++ all.filter fun x => !named.contains x

end Sys2Proof.Machine
end

