-- ==== Sys2Proof/Machine/Flags.lean ====
section
/-! DEFINITION. The levels and sets the manual derives from the records: a lane's `present level` and the pins (R99, R108,
Table 6-5), the attention set and ATTN_N (R32, R130, R149), the busy timebase (R9), SDO (R139, R140). -/

namespace Sys2Proof.Machine

/-- The level that energises the actuator (R98). -/
def Polarity.activeLevel : Polarity → PinLevel
  | .activeHigh => .high
  | .activeLow => .low

/-- The idle level (R98). -/
def Polarity.idleLevel : Polarity → PinLevel
  | .activeHigh => .low
  | .activeLow => .high

/-- `present level` of a lane: the first case of Table 6-2 that holds (R99). -/
def Lane.presentLevel (l : Lane) : PinLevel :=
  if l.trippedBy.any then l.safeLevel
  else match l.owner, l.forced with
    | some _, _ => match l.call with
      | .active => l.polarity.activeLevel
      | .inactive => l.polarity.idleLevel
    | none, some .active => l.polarity.activeLevel
    | none, some .inactive => l.polarity.idleLevel
    | none, some .float => .float
    | none, none => l.polarity.idleLevel

/-- The pin LANEn: LOW while RESET_N is held, whatever the record holds (R108); else the present level. -/
def State.lanePin (s : State) (l : Fin 16) : PinLevel :=
  if s.inReset then .low else (s.lane l).presentLevel

/-- The pin STBn: LOW while RESET_N is held (R114); else HIGH while `remaining` is above 0 (Table 6-5). -/
def State.strobePin (s : State) (k : Fin 4) : Level :=
  if s.inReset then .low else if 0 < (s.strobe k).remaining then .high else .low

/-- An entry is scheduled: PENDING, RUNNING or DRAINING. -/
def Entry.scheduled (r : Entry) : Bool := r.state = .pending || r.state = .running || r.state = .draining

/-- The timebase is busy while an entry is PENDING, RUNNING or DRAINING (R9). -/
def State.timebaseBusy (s : State) : Bool := (List.finRange 64).any fun e => (s.entry e).scheduled

/-- An entry is a member of the attention set exactly while it is DONE with `notify` yes (R32). -/
def Entry.attention (r : Entry) : Bool := r.state = .done && r.prog.notify

/-- The state of a trip source. -/
def State.tripState (s : State) : TripId → TripState
  | .a => s.tripA.state
  | .b => s.tripB.state
  | .soft => s.soft.state

/-- Whether the attention set has a member: a DONE entry with `notify`, or a trip source not QUIET (R149). -/
def State.attention (s : State) : Bool :=
  (List.finRange 64).any (fun e => (s.entry e).attention)
    || s.tripA.state != .quiet || s.tripB.state != .quiet || s.soft.state != .quiet

/-- ATTN_N is pulled low: exactly while the attention set has a member, except while RESET_N holds the part (R149). -/
def State.attnLow (s : State) : Bool := !s.inReset && s.attention

/-- SDO is driven while a transaction is open in state ORDINARY or DISCARDING (R139), and not while in reset (R153). -/
def State.sdoDriven (s : State) : Bool :=
  !s.inReset && (s.link.transaction = .ordinary || s.link.transaction = .discarding)

/-- The n-th byte clocked out in the open transaction: of the outgoing frame, then 0x00 (R140). -/
def State.sdoByte (s : State) (n : Nat) : Byte := (s.link.outgoing.getD []).getD n 0

end Sys2Proof.Machine
end

