-- ==== Sys2Proof/Machine/Operands.lean ====
section
/-! DEFINITION. The value encodings of Table 10-5, both ways: what a byte of a request names, and the bytes of a response. -/

namespace Sys2Proof.Machine

/-! ### What a byte of a request names; none where it names no value (R154) -/

/-- An entry number (R14). -/
def entryOf (b : Byte) : Option (Fin 64) := if h : b.toNat < 64 then some ⟨b.toNat, h⟩ else none

/-- A lane number. -/
def laneOf (b : Byte) : Option (Fin 16) := if h : b.toNat < 16 then some ⟨b.toNat, h⟩ else none

/-- A trigger line number. -/
def lineOf (b : Byte) : Option (Fin 8) := if h : b.toNat < 8 then some ⟨b.toNat, h⟩ else none

/-- A strobe line number. -/
def strobeLineOf (b : Byte) : Option (Fin 4) := if h : b.toNat < 4 then some ⟨b.toNat, h⟩ else none

/-- `lane` of a programme: 0 to 15, or 0xFF for none. -/
def progLaneOf (b : Byte) : Option (Option (Fin 16)) := if b = 0xFF then some none else (laneOf b).map some

/-- yes or no. -/
def yesNoOf (b : Byte) : Option Bool := if b = 0 then some false else if b = 1 then some true else none

/-- The strobe point in bits 5 and 4. -/
def strobePointOf (b : BitVec 2) : Option StrobePoint :=
  if b = 0 then some .start else if b = 1 then some .active else if b = 2 then some .inactive else none

/-- `strobe`: with bit 7 clear absent, whatever the other bits hold; with bit 7 set a point and a line, bits 6, 3 and 2
zero. -/
def strobeOf (b : Byte) : Option (Option StrobeUse) :=
  if b.getLsbD 7 then
    if b.getLsbD 6 || b.getLsbD 3 || b.getLsbD 2 then none
    else (strobePointOf (b.extractLsb' 4 2)).map fun p => some ⟨(b.extractLsb' 0 2).toFin, p⟩
  else some none

/-- `mode`. -/
def modeOf (b : Byte) : Option Mode := if b = 0 then some .once else if b = 1 then some .every else none

/-- `retrigger`. -/
def retriggerOf (b : Byte) : Option Retrigger :=
  if b = 0 then some .ignore else if b = 1 then some .restart else if b = 2 then some .holdOne else none

/-- `edge`. -/
def edgeOf (b : Byte) : Option EdgeSelect :=
  if b = 0 then some .none else if b = 1 then some .rising else if b = 2 then some .falling
  else if b = 3 then some .both else Option.none

/-- `polarity`. -/
def polarityOf (b : Byte) : Option Polarity :=
  if b = 0 then some .activeHigh else if b = 1 then some .activeLow else none

/-- `safe level`. -/
def pinLevelOf (b : Byte) : Option PinLevel :=
  if b = 0 then some .low else if b = 1 then some .high else if b = 2 then some .float else none

/-- The value of LANE_SET: NONE is `some none`. -/
def forcedOf (b : Byte) : Option (Option Forced) :=
  if b = 0 then some none else if b = 1 then some (some .active) else if b = 2 then some (some .inactive)
  else if b = 3 then some (some .float) else none

/-- `active level`. -/
def levelOf (b : Byte) : Option Level := if b = 0 then some .low else if b = 1 then some .high else none

/-- A trip source. -/
def tripIdOfByte (b : Byte) : Option TripId :=
  if b = 0 then some .a else if b = 1 then some .b else if b = 2 then some .soft else none

/-- Source A or B. -/
def tripInputOf (b : Byte) : Option TripInput := if b = 0 then some .a else if b = 1 then some .b else none

/-- A sample divider: 1 to 16 (R162). -/
def sampleDividerOf (b : Byte) : Option Nat := if 1 ≤ b.toNat ∧ b.toNat ≤ 16 then some b.toNat else none

/-- A filter depth: 1 to 15 (R162, R164). -/
def depthOf (b : Byte) : Option Nat := if 1 ≤ b.toNat ∧ b.toNat ≤ 15 then some b.toNat else none

/-- The start fields of SCHEDULE and SCHEDULE_SET (Table 10-7). The named predecessor of an AFTER start is a plain byte: a
number out of range is CHAIN_INVALID and not PARAM_RANGE (R14, R157). -/
inductive StartFields where
  | atTime (instant : Instant) (lateOk : Bool)
  | onTrigger (line : Fin 8) (mode : Mode) (retrigger : Retrigger)
  | after (named : Byte)
  deriving DecidableEq, Repr

/-- `retrigger` as the start part records it: not checked for ONCE, which records IGNORE (R24). -/
def retriggerFor (m : Mode) (b : Byte) : Option Retrigger :=
  match m with
  | .once => some .ignore
  | .every => retriggerOf b

/-- The start fields a `start kind` and a start block name; none where a field names no value (R157, check 3). -/
def startFieldsOf (kind : Byte) (b : StartBlock) : Option StartFields :=
  if kind = 1 then (yesNoOf b.b4).map fun late => .atTime (ofBytes4 b.b0 b.b1 b.b2 b.b3) late
  else if kind = 2 then
    (lineOf b.b0).bind fun n => (modeOf b.b1).bind fun m => (retriggerFor m b.b2).map fun r => .onTrigger n m r
  else if kind = 3 then some (.after b.b0)
  else none

/-- The common start of SCHEDULE_SET: AT_TIME, or ON_TRIGGER with mode ONCE (R124, R158). -/
def setStartOf (kind : Byte) (b : StartBlock) : Option StartFields :=
  (startFieldsOf kind b).filter fun f =>
    match f with
    | .onTrigger _ m _ => m = .once
    | .atTime _ _ => true
    | .after _ => false

/-! ### The bytes of a response -/

/-- A status (Table 10-3). -/
def Status.code : Status → Byte
  | .ok => 0x00
  | .entryState => 0x01
  | .paramRange => 0x02
  | .badEntry => 0x03
  | .laneBusy => 0x04
  | .laneForced => 0x05
  | .laneTripped => 0x06
  | .timePast => 0x07
  | .chainInvalid => 0x08
  | .setFailed => 0x09
  | .tripActive => 0x0A
  | .timebaseBusy => 0x0B
  | .badRequest => 0x0C
  | .frameError => 0x0D
  | .notReady => 0xE0
  | .noResponse => 0xE1

/-- The frame of a response (R141, R144). -/
def responseFrame (tag : Byte) (a : Answer) : List Byte := frameOf a.status.code tag a.payload

/-- An entry number, 0xFF when absent. -/
def entryByte (e : Option (Fin 64)) : Byte := (e.map fun x => BitVec.ofNat 8 x.val).getD 0xFF

/-- `lane`, 0xFF for none. -/
def laneByte (l : Option (Fin 16)) : Byte := (l.map fun x => BitVec.ofNat 8 x.val).getD 0xFF

/-- yes or no. -/
def yesNoByte (b : Bool) : Byte := if b then 1 else 0

/-- `state` of an entry. -/
def EntryState.byte : EntryState → Byte
  | .free => 0
  | .idle => 1
  | .pending => 2
  | .running => 3
  | .draining => 4
  | .done => 5

/-- `phase`. -/
def Phase.byte : Phase → Byte
  | .delay => 0
  | .active => 1
  | .rest => 2

/-- The strobe point. -/
def StrobePoint.number : StrobePoint → Nat
  | .start => 0
  | .active => 1
  | .inactive => 2

/-- `strobe`. -/
def strobeByte : Option StrobeUse → Byte
  | none => 0
  | some u => BitVec.ofNat 8 (128 + 16 * u.point.number + u.line.val)

/-- `mode`. -/
def Mode.byte : Mode → Byte
  | .once => 0
  | .every => 1

/-- `retrigger`. -/
def Retrigger.byte : Retrigger → Byte
  | .ignore => 0
  | .restart => 1
  | .holdOne => 2

/-- `start kind`, 0 for absent. -/
def startKindByte : Option Start → Byte
  | none => 0
  | some (.atTime _ _) => 1
  | some (.onTrigger _ _ _) => 2
  | some (.after _) => 3

/-- The start block (Table 10-7); bytes that carry no field are 0x00 (R154), and so is `retrigger` of a ONCE start (R161). -/
def startBlockBytes : Option Start → List Byte
  | none => [0, 0, 0, 0, 0]
  | some (.atTime t late) => bytes4 t ++ [yesNoByte late]
  | some (.onTrigger n m r) => [BitVec.ofNat 8 n.val, m.byte, if m = .once then 0 else r.byte, 0, 0]
  | some (.after p) => [BitVec.ofNat 8 p.val, 0, 0, 0, 0]

/-- `outcome`, 0 for absent. -/
def outcomeByte : Option EntryOutcome → Byte
  | none => 0
  | some .completed => 1
  | some .drained => 2
  | some .cancelled => 3
  | some .tripped => 4
  | some .overrun => 5
  | some .chainBroken => 6

/-- A value whose bit n is the n-th of four flags. -/
def flagByte (b0 b1 b2 b3 : Bool) : Byte := BitVec.ofNat 8 (b0.toNat + 2 * b1.toNat + 4 * b2.toNat + 8 * b3.toNat)

/-- `flags`. -/
def EntryFlags.byte (f : EntryFlags) : Byte := flagByte f.lateStart f.strobeMerged f.stagedDiscarded false

/-- The presence byte of QUERY (byte 38). -/
def Entry.presence (r : Entry) : Byte :=
  flagByte r.staged.delay.isSome r.staged.width.isSome r.staged.period.isSome r.heldTrigger.isSome

/-- `polarity`. -/
def Polarity.byte : Polarity → Byte
  | .activeHigh => 0
  | .activeLow => 1

/-- `safe level` and `present level`. -/
def PinLevel.byte : PinLevel → Byte
  | .low => 0
  | .high => 1
  | .float => 2

/-- `call`. -/
def Call.byte : Call → Byte
  | .inactive => 0
  | .active => 1

/-- `forced`, 0 for absent. -/
def forcedByte : Option Forced → Byte
  | none => 0
  | some .active => 1
  | some .inactive => 2
  | some .float => 3

/-- `tripped-by`. -/
def TrippedBy.byte (t : TrippedBy) : Byte := flagByte t.a t.b t.soft false

/-- Trip `state`. -/
def TripState.byte : TripState → Byte
  | .quiet => 0
  | .held => 1
  | .latched => 2

/-- A set of entries as 64 bits, bit n for entry n. -/
def entrySet (p : Fin 64 → Bool) : BitVec 64 :=
  (List.finRange 64).foldl (fun acc e => if p e then acc ||| (1#64 <<< e.val) else acc) 0

/-- The QUERY payload, 59 bytes (Table 10-10). -/
def queryPayload (e : Fin 64) (r : Entry) : List Byte :=
  [BitVec.ofNat 8 e.val, r.state.byte, r.phase.byte, laneByte r.prog.lane]
    ++ bytes3 r.prog.delay ++ bytes3 r.prog.width ++ bytes3 r.prog.period ++ bytes2 r.prog.count
    ++ [strobeByte r.prog.strobe, yesNoByte r.prog.notify, startKindByte r.start] ++ startBlockBytes r.start
    ++ bytes4 r.cycleStart ++ bytes4 r.nextInstant ++ bytes2 r.cyclesDone ++ bytes2 r.runsCompleted
    ++ [r.missedTriggers, r.worstSkew, r.flags.byte, r.presence]
    ++ bytes3 (r.staged.delay.getD 0) ++ bytes3 (r.staged.width.getD 0) ++ bytes3 (r.staged.period.getD 0)
    ++ bytes4 (r.heldTrigger.getD 0) ++ [entryByte r.predecessor, entryByte r.successor, outcomeByte r.outcome]
    ++ bytes4 (r.retiredAt.getD 0)

/-- The LANE_QUERY payload, 9 bytes (Table 10-11). -/
def laneQueryPayload (n : Fin 16) (l : Lane) : List Byte :=
  [BitVec.ofNat 8 n.val, l.polarity.byte, l.safeLevel.byte, entryByte l.owner, l.call.byte, entryByte l.heir,
    forcedByte l.forced, l.trippedBy.byte, l.presentLevel.byte]

/-- The number of FREE entries (R20, R150). -/
def State.freeCount (s : State) : Nat := ((List.finRange 64).filter fun e => (s.entry e).state = .free).length

/-- The SUMMARY payload, 20 bytes (Table 10-12). -/
def summaryPayload (s : State) : List Byte :=
  bytes8 (entrySet fun e => (s.entry e).state = .done) ++ bytes8 (entrySet fun e => (s.entry e).attention)
    ++ [BitVec.ofNat 8 s.freeCount, s.tripA.state.byte, s.tripB.state.byte, s.soft.state.byte]

/-- OK with no payload. -/
def Answer.ok : Answer := { status := .ok, payload := [] }

/-- A refusal: a status with no payload (R154). -/
def Answer.refusal (st : Status) : Answer := { status := st, payload := [] }

end Sys2Proof.Machine
end

