-- ==== Sys2Proof/Machine/Retirement.lean ====
section
/-! DEFINITION. Retirement (section 2.5), the releases it hands on, and the breaking of a chain (section 7.4). -/

namespace Sys2Proof.Machine

/-- `missed triggers` increases by one (R16). -/
def Entry.missTrigger (r : Entry) : Entry := { r with missedTriggers := satSucc r.missedTriggers }

/-- A held trigger, where present, is thrown away and counted as missed (R16, R27, R59). -/
def Entry.discardHeld (r : Entry) : Entry :=
  if r.heldTrigger.isSome then { r.missTrigger with heldTrigger := none } else r

/-- Staged values, where present, are removed and STAGED_DISCARDED is set (R17, R27). -/
def Entry.discardStaged (r : Entry) : Entry :=
  if r.staged = Staged.none then r
  else { r with staged := Staged.none, flags := { r.flags with stagedDiscarded := true } }

/-- The record of an entry that retires with an outcome at a tick (R27). -/
def Entry.retired (r : Entry) (oc : EntryOutcome) (at_ : Instant) : Entry :=
  { r.discardStaged.discardHeld with state := .done, outcome := some oc, retiredAt := some at_, predecessor := none }

/-- Clear `successor` of entry `p` where it names `e` (R27, R116). -/
def State.clearSuccessor (s : State) (p e : Fin 64) : State :=
  if (s.entry p).successor = some e then s.setEntry p { s.entry p with successor := none } else s

/-- The link of entry `e` to its predecessor is removed at the predecessor's end (R27). -/
def State.unlinkPredecessor (s : State) (e : Fin 64) : State :=
  match (s.entry e).predecessor with
  | some p => s.clearSuccessor p e
  | none => s

/-- The link from `p` to its successor `y` is removed at both ends (R116). -/
def State.unlink (s : State) (p y : Fin 64) : State :=
  let s := s.clearSuccessor p y
  if (s.entry y).predecessor = some p then s.setEntry y { s.entry y with predecessor := none } else s

/-- The retirement of one entry with the releases that concern it alone: its record, its link to its predecessor, its
due item, its subscription, its lane claim (R27, R28, R103). An entry that is not scheduled does not retire (R29).
`taker` is the successor a hand-off is about to start. -/
def State.retireOne (s : State) (e : Fin 64) (oc : EntryOutcome) (taker : Option (Fin 64)) : State :=
  if (s.entry e).scheduled then
    ((((s.unlinkPredecessor e).setEntry e (((s.unlinkPredecessor e).entry e).retired oc s.now)).removeDue e).unsubscribe
      e).releaseLane e taker
  else s

/-- The waiting entries of a chain retire CHAIN_BROKEN from `y` to the tail, each whole before the next (R122). The fuel
is the greatest length of a chain (R116). -/
def State.breakFrom (s : State) : Nat → Option (Fin 64) → State
  | 0, _ => s
  | _, none => s
  | k + 1, some y =>
    match (s.entry y).successor with
    | some z => ((s.retireOne y .chainBroken none).unlink y z).breakFrom k (some z)
    | none => s.retireOne y .chainBroken none

/-- The successor of entry `e`, where it has one, is broken with the chain behind it (R28, R122). -/
def State.breakBehind (s : State) (e : Fin 64) : State :=
  match (s.entry e).successor with
  | some y => (s.unlink e y).breakFrom 64 (some y)
  | none => s

/-- A retirement with an outcome other than COMPLETED or DRAINED: the entry, and then the chain behind it (R28, R122). -/
def State.retireBroken (s : State) (e : Fin 64) (oc : EntryOutcome) : State :=
  if (s.entry e).scheduled then (s.retireOne e oc none).breakBehind e else s

end Sys2Proof.Machine
end

