-- ==== Sys2Proof/Machine/Running.lean ====
section
/-! DEFINITION. Running an entry (chapter 3): cycle geometry, the beginning of a run, the action, the end of a run, the
insertion of an item (R67) and the hand-off (section 7.3). -/

namespace Sys2Proof.Machine

/-! ### Cycle geometry (R38 to R40) -/

/-- A run repeats unless N = 1 (R38). -/
def Programme.repeats (p : Programme) : Bool := p.count ≠ 1

/-- The offset of INACTIVE: D + W, exactly (R18, R38). -/
def Programme.inactiveAt (p : Programme) : Nat := p.delay.toNat + p.width.toNat

/-- The offset at which a cycle ends: INACTIVE of a one-shot, END of a repeating run (R44). -/
def Programme.endAt (p : Programme) : Nat := if p.repeats then p.period.toNat else p.inactiveAt

/-- A programme is valid (R18); `lane`, `strobe` and `notify` are in range by their types. -/
def Programme.valid (p : Programme) : Bool :=
  if p.repeats then decide (1 ≤ p.period.toNat ∧ p.inactiveAt ≤ p.period.toNat) else decide (1 ≤ p.inactiveAt)

/-- `phase` after the instant at an offset of the cycle in force (R40). -/
def Programme.phaseAt (p : Programme) (o : Nat) : Phase :=
  if o < p.delay.toNat then .delay else if o < p.inactiveAt then .active else .rest

/-- The smallest candidate greater than an offset. -/
def leastAbove (o : Nat) : List Nat → Option Nat
  | [] => none
  | c :: rest =>
    if o < c then some ((leastAbove o rest).elim c (min c)) else leastAbove o rest

/-- The offsets D and D + W, together with P for a repeating run (R39). -/
def Programme.candidates (p : Programme) : List Nat :=
  if p.repeats then [p.delay.toNat, p.inactiveAt, p.period.toNat] else [p.delay.toNat, p.inactiveAt]

/-- The offset of the next instant after the one at `o` (R39). -/
def Programme.nextOffset (p : Programme) (o : Nat) : Nat := (leastAbove o p.candidates).getD o

/-- Whether a strobe point is among the instants at offset `o`; START is told apart by `started` (R39, R46). -/
def Programme.serves (p : Programme) (o : Nat) (started : Bool) : StrobePoint → Bool
  | .start => started
  | .active => o = p.delay.toNat
  | .inactive => o = p.inactiveAt

/-- Whether the entry's strobe point is among the instants at offset `o` (R46). -/
def Entry.serves (r : Entry) (o : Nat) (started : Bool) : Bool :=
  match r.prog.strobe with
  | some u => r.prog.serves o started u.point
  | none => false

/-! ### Updates of a record in a run -/

/-- A run begins at S (R47). -/
def Entry.beginRun (r : Entry) (start : Instant) : Entry :=
  { r with state := .running, cycleStart := start, cyclesDone := 0, phase := .delay, nextInstant := start }

/-- Staged values are written into the programme (R45). -/
def Entry.takeStaged (r : Entry) : Entry :=
  { r with
    prog := { r.prog with
      delay := r.staged.delay.getD r.prog.delay
      width := r.staged.width.getD r.prog.width
      period := r.staged.period.getD r.prog.period }
    staged := Staged.none }

/-- The last instant taken lies at offset `o`: `phase` and `next instant` (R39, R40). -/
def Entry.atOffset (r : Entry) (o : Nat) : Entry :=
  { r with
    phase := r.prog.phaseAt o
    nextInstant := r.cycleStart + BitVec.ofNat 32 (r.prog.nextOffset o) }

/-- `worst skew` is raised to the skew of an action, saturating at 255 (R7, R16). -/
def Entry.raiseSkew (r : Entry) (skew : Nat) : Entry :=
  { r with worstSkew := BitVec.ofNat 8 (max r.worstSkew.toNat (min skew 255)) }

/-- A cycle is counted (R44). -/
def Entry.countCycle (r : Entry) : Entry := { r with cyclesDone := satSucc r.cyclesDone }

/-- A run that reached its end is counted (R16). -/
def Entry.countRun (r : Entry) : Entry := { r with runsCompleted := satSucc r.runsCompleted }

/-- START and the instants at offset 0 with it are taken: staged values first (R45, R49). -/
def Entry.takeStart (r : Entry) : Entry := r.takeStaged.atOffset 0

/-- The level a running entry calls for (R41). -/
def Entry.callLevel (r : Entry) : Call := if r.phase = .active then .active else .inactive

/-! ### The item of an entry (R67, R68) -/

/-- The item of entry `e`, due at its `next instant`, is inserted; more than 255 ticks late it is not kept, and the entry
retires OVERRUN in the event (R67). -/
def State.insertItem (s : State) (e : Fin 64) : State :=
  if Config.overrunLimit < lateness (s.entry e).nextInstant s.now then (s.removeDue e).retireBroken e .overrun
  else s.joinDue e

/-- What follows the instants an entry has taken and the writing of its record: the level it calls for, its strobe
request when its point is served, and its item (R43 steps 4, 5 and 7; R49). -/
def State.follow (s : State) (e : Fin 64) (served : Bool) : State :=
  ((s.handLevel e (s.entry e).callLevel).serveStrobe e served).insertItem e

/-- A run of entry `e` begins at `start` and takes its START in this event (R47, R49). `unserved` is false when the event
has already made the entry's one request (R46). -/
def State.startInEvent (s : State) (e : Fin 64) (start : Instant) (unserved : Bool) : State :=
  let r := ((s.entry e).beginRun start).takeStart
  (s.setEntry e r).follow e (unserved && r.serves 0 true)

/-! ### The hand-off (R119, R120) -/

/-- The waiting successor `y` of `p` is started at `start`, its link removed at both ends (R120 steps 2 and 4). -/
def State.startSuccessor (s : State) (p y : Fin 64) (start : Instant) : State :=
  let s := s.unlink p y
  if (s.entry y).state = .pending then s.startInEvent y start true else s

/-- A retirement COMPLETED or DRAINED: the entry retires, its lane passes to its successor where that is the heir, and
the successor is started at the nominal end (R28, R103, R120). -/
def State.retireWell (s : State) (e : Fin 64) (oc : EntryOutcome) (start : Instant) : State :=
  match (s.entry e).successor with
  | some y => (s.retireOne e oc (some y)).startSuccessor e y start
  | none => s.retireOne e oc none

/-! ### The action (R43) -/

/-- The action takes START at nominal instant `t`: of a PENDING AT_TIME entry, whose run it begins, or of a run begun by
an edge (R48). -/
def State.actStart (s : State) (e : Fin 64) (r : Entry) (t : Instant) : State :=
  let r' := (r.takeStart).raiseSkew (skewOf s.now t)
  (s.setEntry e r').follow e (r'.serves 0 true)

/-- The action takes the instants at offset `o` inside a cycle (R43 steps 3 to 7). -/
def State.actInside (s : State) (e : Fin 64) (r : Entry) (t : Instant) (o : Nat) : State :=
  (s.setEntry e ((r.atOffset o).raiseSkew (skewOf s.now t))).follow e (r.serves o false)

/-- The action takes the END of a cycle and begins the next (R43 steps 1 to 7): the instants of the cycle that ends and
those at offset 0 of the new one are taken together (R39), with at most one strobe request (R46). -/
def State.actNewCycle (s : State) (e : Fin 64) (r : Entry) (t : Instant) : State :=
  let r' := (({ r.countCycle with cycleStart := t }).takeStart).raiseSkew (skewOf s.now t)
  (s.setEntry e r').follow e (r.serves r.prog.endAt false || r'.serves 0 true)

/-- The record a final action leaves before what follows the run: the cycle and the run counted, `phase` REST, the skew
recorded, `next instant` at the nominal end (R43 step 1, R44, R50). -/
def Entry.endOfRun (r : Entry) (t : Instant) (skew : Nat) : Entry :=
  { (r.countCycle.countRun).raiseSkew skew with phase := r.prog.phaseAt r.prog.endAt, nextInstant := t }

/-- A RUNNING EVERY entry returns to PENDING at the end of a run (R51). -/
def State.returnToPending (s : State) (e : Fin 64) : State :=
  (s.setEntry e { (s.entry e).takeStaged with state := .pending }).handLevel e .inactive

/-- What follows the end of a run (section 3.5): DRAINED, COMPLETED, the return to PENDING, or a new run from the held
trigger. `served` says whether the final instants have made the entry's request. -/
def State.afterRun (s : State) (e : Fin 64) (t : Instant) (served : Bool) : State :=
  let r := s.entry e
  if r.state = .draining then s.retireWell e .drained t
  else match r.start, r.heldTrigger with
    | some (.onTrigger _ .every _), none => s.returnToPending e
    | some (.onTrigger _ .every _), some h => (s.setEntry e { r with heldTrigger := none }).startInEvent e h !served
    | _, _ => s.retireWell e .completed t

/-- The final action of a run (R43 step 1). -/
def State.actFinal (s : State) (e : Fin 64) (r : Entry) (t : Instant) : State :=
  let served := r.serves r.prog.endAt false
  ((s.setEntry e (r.endOfRun t (skewOf s.now t))).serveStrobe e served).afterRun e t served

/-- Whether the end of the cycle in progress ends the run: the entry is DRAINING, or the count reaches N (R44, R53). -/
def Entry.endsRun (r : Entry) : Bool :=
  r.state = .draining || (r.prog.count ≠ 0 && r.prog.count.toNat ≤ r.countCycle.cyclesDone.toNat)

/-- One action of a RUNNING or DRAINING entry at nominal instant `t` (R43). An entry whose `cycle start` is `t` has not
yet taken the START of its run (log entry 9). -/
def State.actRunning (s : State) (e : Fin 64) (t : Instant) : State :=
  let r := s.entry e
  let o := (t - r.cycleStart).toNat
  if o = 0 then s.actStart e r t
  else if o = r.prog.endAt then
    if r.endsRun then s.actFinal e r t else s.actNewCycle e r t
  else s.actInside e r t o

/-- The item of entry `e`, due at `t`, is handed over at `now`: it leaves the list, and the entry takes one action (R43,
R48, R72). -/
def State.takeAction (s : State) (e : Fin 64) (t : Instant) : State :=
  let s := s.removeDue e
  let r := s.entry e
  match r.state with
  | .pending => s.actStart e (r.beginRun t) t
  | .running | .draining => s.actRunning e t
  | .free | .idle | .done => s

end Sys2Proof.Machine
end

