-- ==== Sys2Proof/Machine/EntryRequests.lean ====
section
/-! DEFINITION. The entry requests as the entry table carries them out (chapters 2, 3 and 7; checks in the order of chapter
10). A request function answers the state it leaves and the status and payload it returns (R146). -/

namespace Sys2Proof.Machine

/-- BAD_ENTRY is the first check of a request that addresses an entry (R14, R154). -/
def withEntry (b : Byte) (s : State) (f : Fin 64 → State × Answer) : State × Answer :=
  match entryOf b with
  | some e => f e
  | none => (s, .refusal .badEntry)

/-! ### DEFINE (R20, R21, R156) -/

/-- The programme a DEFINE carries; none where a byte names no value (R156, check 3). -/
def programmeOf (lane : Byte) (delay width period : Ticks) (count : Count) (strobe notify : Byte) : Option Programme :=
  (progLaneOf lane).bind fun l => (strobeOf strobe).bind fun u => (yesNoOf notify).map fun nt =>
    { lane := l, delay := delay, width := width, period := period, count := count, strobe := u, notify := nt }

/-- DEFINE on a FREE or IDLE entry: the programme is written whole and the entry is IDLE (R20, R21). -/
def Entry.define (r : Entry) (p : Programme) : Entry := { r with state := .idle, prog := p }

/-- DEFINE (R20, R21; checks of R156). -/
def reqDefine (entry lane : Byte) (delay width period : Ticks) (count : Count) (strobe notify : Byte) (s : State) :
    State × Answer :=
  withEntry entry s fun e =>
    if (s.entry e).state = .free ∨ (s.entry e).state = .idle then
      match programmeOf lane delay width period count strobe notify with
      | none => (s, .refusal .paramRange)
      | some p => if p.valid then (s.setEntry e ((s.entry e).define p), .ok) else (s, .refusal .paramRange)
    else (s, .refusal .entryState)

/-! ### SCHEDULE (R22 to R26, R115, R117, R157) -/

/-- The predecessor of an AFTER start is valid for a link (R115). One that has a successor is CHAIN_INVALID, by R115 and the
order of R157, also where R118 says LANE_BUSY of a second heir (DESIGN CHOICE, log entry 23). -/
def State.chainValid (s : State) (e p : Fin 64) : Bool :=
  p ≠ e && (s.entry p).scheduled && (s.entry p).successor = none

/-- The start part a SCHEDULE writes: the start fields with the chain check made (R25, R115, R157 check 4). -/
def State.resolveStart (s : State) (e : Fin 64) : StartFields → Except Status Start
  | .atTime t late => .ok (.atTime t late)
  | .onTrigger n m r => .ok (.onTrigger n m r)
  | .after b =>
    match entryOf b with
    | some p => if s.chainValid e p then .ok (.after p) else .error .chainInvalid
    | none => .error .chainInvalid

/-- Whether the lane's owner is the predecessor a start names (R117). -/
def Lane.ownedByPredecessor (l : Lane) : Start → Bool
  | .after p => l.owner = some p
  | _ => false

/-- The claim of an entry with a start on a lane (R101, R117, Table 7-1): the lane's record with the claim, or the refusal. -/
def Lane.claim (l : Lane) (e : Fin 64) (start : Start) : Except Status Lane :=
  if l.trippedBy.any then .error .laneTripped
  else if l.heir ≠ none then .error .laneBusy
  else if l.ownedByPredecessor start then .ok { l with heir := some e }
  else if l.owner ≠ none then .error .laneBusy
  else if l.forced ≠ none then .error .laneForced
  else .ok (l.claimedBy e)

/-- The claim of entry `e` on the lane its programme names; a silent entry claims nothing (R19, R26). -/
def State.claimLane (s : State) (e : Fin 64) (start : Start) : Except Status State :=
  match (s.entry e).prog.lane with
  | none => .ok s
  | some l => match (s.lane l).claim e start with
    | .ok l' => .ok (s.setLane l l')
    | .error st => .error st

/-- TIME_PAST: an AT_TIME start with T past and `late_ok` no (R23, R157 check 8). -/
def State.timePast (s : State) : Start → Bool
  | .atTime t late => isPast t s.now && !late
  | _ => false

/-- The record of an IDLE entry that is scheduled: PENDING, with the start part written; a past T is re-based to `now`
and LATE_START is set (R22, R23, R25). -/
def Entry.scheduleAt (r : Entry) (start : Start) (now : Instant) : Entry :=
  match start with
  | .atTime t late =>
    if isPast t now then
      { r with state := .pending, start := some (.atTime now late), nextInstant := now,
               flags := { r.flags with lateStart := true } }
    else { r with state := .pending, start := some start, nextInstant := t }
  | .onTrigger _ _ _ => { r with state := .pending, start := some start }
  | .after p => { r with state := .pending, start := some start, predecessor := some p }

/-- The entry joins the structure of its start kind: the due list, a subscription list, or its predecessor (R23, R24, R25). -/
def State.joinStructure (s : State) (e : Fin 64) (start : Start) : State :=
  match start with
  | .atTime _ _ => s.insertItem e
  | .onTrigger n _ _ => s.subscribe n e
  | .after p => s.setEntry p { s.entry p with successor := some e }

/-- The effects of an accepted SCHEDULE, as one whole (R22). `claimed` is the state with the lane claim made. -/
def State.place (claimed : State) (e : Fin 64) (start : Start) : State :=
  (claimed.setEntry e ((claimed.entry e).scheduleAt start claimed.now)).joinStructure e start

/-- Checks 4 to 8 of SCHEDULE, and its effect when they pass (R157). -/
def State.scheduleChecked (s : State) (e : Fin 64) (f : StartFields) : Except Status State :=
  match s.resolveStart e f with
  | .error st => .error st
  | .ok start => match s.claimLane e start with
    | .error st => .error st
    | .ok claimed => if s.timePast start then .error .timePast else .ok (claimed.place e start)

/-- SCHEDULE (R22; checks of R157). -/
def reqSchedule (entry kind : Byte) (block : StartBlock) (s : State) : State × Answer :=
  withEntry entry s fun e =>
    if (s.entry e).state = .idle then
      match startFieldsOf kind block with
      | none => (s, .refusal .paramRange)
      | some f => match s.scheduleChecked e f with
        | .ok t => (t, .ok)
        | .error st => (s, .refusal st)
    else (s, .refusal .entryState)

/-! ### SCHEDULE_SET (R124 to R126, R158) -/

/-- The judgement of one member, and the state it would leave (R124). -/
def State.scheduleMember (s : State) (f : StartFields) (b : Byte) : Except Status State :=
  match entryOf b with
  | none => .error .badEntry
  | some e => if (s.entry e).state = .idle then s.scheduleChecked e f else .error .entryState

/-- The members are judged in list order, each against the state the earlier ones would leave; the first that fails gives
its index and the status it met (R124, R125). -/
def State.scheduleMembers (s : State) (f : StartFields) : Nat → List Byte → Except (Nat × Status) State
  | _, [] => .ok s
  | k, b :: rest => match s.scheduleMember f b with
    | .ok t => t.scheduleMembers f (k + 1) rest
    | .error st => .error (k, st)

/-- SCHEDULE_SET: the length the item count calls for (R144, R158), the request as a whole, then the members; all are
scheduled or none (R124, R125, R126). -/
def reqScheduleSet (count kind : Byte) (block : StartBlock) (members : List Byte) (s : State) : State × Answer :=
  if members.length ≠ count.toNat then (s, .refusal .paramRange)
  else if count.toNat < 1 ∨ 8 < count.toNat then (s, .refusal .paramRange)
  else match setStartOf kind block with
    | none => (s, .refusal .paramRange)
    | some f => match s.scheduleMembers f 0 members with
      | .ok t => (t, .ok)
      | .error (k, st) => (s, { status := .setFailed, payload := [BitVec.ofNat 8 k, st.code] })

/-! ### AMEND (R54 to R57, R159) -/

/-- The fields an AMEND names, each with its new value (Table 10-8). -/
structure Amendment where
  delay : Option Ticks
  width : Option Ticks
  period : Option Ticks
  count : Option Count
  deriving DecidableEq, Repr

/-- The named fields of a mask (R159). -/
def amendmentOf (mask : Byte) (delay width period : Ticks) (count : Count) : Amendment where
  delay := if mask.getLsbD 0 then some delay else none
  width := if mask.getLsbD 1 then some width else none
  period := if mask.getLsbD 2 then some period else none
  count := if mask.getLsbD 3 then some count else none

/-- A programme with each named D, W and P replaced. -/
def Programme.retimed (p : Programme) (delay width period : Option Ticks) : Programme :=
  { p with delay := delay.getD p.delay, width := width.getD p.width, period := period.getD p.period }

/-- A programme with a named N replaced. -/
def Programme.recounted (p : Programme) (count : Option Count) : Programme := { p with count := count.getD p.count }

/-- Values named join those staged earlier (R56). -/
def Staged.merge (st : Staged) (a : Amendment) : Staged where
  delay := a.delay <|> st.delay
  width := a.width <|> st.width
  period := a.period <|> st.period

/-- An AMEND of a PENDING entry: the programme it leaves (R55). -/
def Entry.amendedProgramme (r : Entry) (a : Amendment) : Programme :=
  (r.prog.retimed a.delay a.width a.period).recounted a.count

/-- A new N that would change a RUNNING entry's kind of run (R56, R159 check 4). -/
def Entry.changesKind (r : Entry) (a : Amendment) : Bool :=
  match a.count with
  | some n => decide (n = 1) != decide (r.prog.count = 1)
  | none => false

/-- The two combinations that an AMEND of a RUNNING entry must leave valid: in force now, and from the next START (R56). -/
def Entry.amendValid (r : Entry) (a : Amendment) : Bool :=
  let st := r.staged.merge a
  (r.prog.recounted a.count).valid
    && ((r.prog.retimed st.delay st.width st.period).recounted a.count).valid

/-- `cycles done` when N is written on a RUNNING entry: a run at or past its new N is shortened (R57). -/
def Entry.shortened (r : Entry) (a : Amendment) : Count :=
  match a.count with
  | some n => if n ≠ 0 ∧ n.toNat ≤ r.cyclesDone.toNat then n - 1 else r.cyclesDone
  | none => r.cyclesDone

/-- An accepted AMEND of a RUNNING entry: D, W and P are staged, N is written (R56, R57). -/
def Entry.amendRunning (r : Entry) (a : Amendment) : Entry :=
  { r with staged := r.staged.merge a, prog := r.prog.recounted a.count, cyclesDone := r.shortened a }

/-- AMEND (R54 to R57; checks of R159). A mask of 0 names no field and changes nothing (R54). -/
def reqAmend (entry mask : Byte) (delay width period : Ticks) (count : Count) (s : State) : State × Answer :=
  withEntry entry s fun e =>
    let r := s.entry e
    let a := amendmentOf mask delay width period count
    if r.state = .pending then
      if mask = 0 then (s, .ok)
      else if 16 ≤ mask.toNat then (s, .refusal .paramRange)
      else if (r.amendedProgramme a).valid then (s.setEntry e { r with prog := r.amendedProgramme a }, .ok)
      else (s, .refusal .paramRange)
    else if r.state = .running then
      if mask = 0 then (s, .ok)
      else if 16 ≤ mask.toNat then (s, .refusal .paramRange)
      else if r.changesKind a then (s, .refusal .paramRange)
      else if r.amendValid a then (s.setEntry e (r.amendRunning a), .ok)
      else (s, .refusal .paramRange)
    else (s, .refusal .entryState)

/-! ### DRAIN and CANCEL (R59, R60, R62, R160) -/

/-- A start ON_TRIGGER with mode EVERY. -/
def Entry.isEvery (r : Entry) : Bool :=
  match r.start with
  | some (.onTrigger _ .every _) => true
  | _ => false

/-- DRAIN: a RUNNING entry becomes DRAINING and its held trigger is discarded (R59); a PENDING ON_TRIGGER EVERY entry
retires DRAINED and hands off at `now` (R60). -/
def reqDrain (entry : Byte) (s : State) : State × Answer :=
  withEntry entry s fun e =>
    let r := s.entry e
    if r.state = .running then (s.setEntry e { r.discardHeld with state := .draining }, .ok)
    else if r.state = .pending ∧ r.isEvery then (s.retireWell e .drained s.now, .ok)
    else (s, .refusal .entryState)

/-- CANCEL: a PENDING, RUNNING or DRAINING entry retires CANCELLED at once (R62). -/
def reqCancel (entry : Byte) (s : State) : State × Answer :=
  withEntry entry s fun e =>
    if (s.entry e).scheduled then (s.retireBroken e .cancelled, .ok) else (s, .refusal .entryState)

/-! ### QUERY, ACK and RELEASE (R33, R34, R35) -/

/-- QUERY: the record as it stands (R33, R161). -/
def reqQuery (entry : Byte) (s : State) : State × Answer :=
  withEntry entry s fun e => (s, { status := .ok, payload := queryPayload e (s.entry e) })

/-- An IDLE entry that holds a programme and nothing else (R34). -/
def Entry.acknowledged (r : Entry) : Entry := { Entry.free with state := .idle, prog := r.prog }

/-- ACK (R34). -/
def reqAck (entry : Byte) (s : State) : State × Answer :=
  withEntry entry s fun e =>
    if (s.entry e).state = .done then (s.setEntry e (s.entry e).acknowledged, .ok) else (s, .refusal .entryState)

/-- RELEASE (R35). -/
def reqRelease (entry : Byte) (s : State) : State × Answer :=
  withEntry entry s fun e =>
    if (s.entry e).state = .idle ∨ (s.entry e).state = .done then (s.setEntry e Entry.free, .ok)
    else (s, .refusal .entryState)

end Sys2Proof.Machine
end

