-- ==== Sys2Proof/Machine/Triggers.lean ====
section
/-! DEFINITION. Trigger lines (chapter 5): the sample count, the filter, edge qualification and the walk. -/

namespace Sys2Proof.Machine

/-- The other level. -/
def otherLevel : Level → Level
  | .low => .high
  | .high => .low

/-- Whether `edge` selects a change of accepted level to `level` (R83, Table 5-2). -/
def EdgeSelect.qualifies (edge : EdgeSelect) (level : Level) : Bool :=
  match edge, level with
  | .none, _ => false
  | .rising, .high => true
  | .rising, .low => false
  | .falling, .high => false
  | .falling, .low => true
  | .both, _ => true

/-! ### The walk (R88 to R92, Table 5-5) -/

/-- A qualified edge starts a PENDING ON_TRIGGER entry; its START waits for the dispatch (R48, R89). -/
def State.triggerStart (s : State) (n : Fin 8) (e : Fin 64) (mode : Mode) (stamp : Instant) : State :=
  let s := s.setEntry e ((s.entry e).beginRun stamp)
  let s := match mode with
    | .once => s.unsubscribeFrom n e
    | .every => s
  s.insertItem e

/-- A qualified edge that reaches a RUNNING EVERY entry (R90, R91, R92). -/
def State.retrigger (s : State) (e : Fin 64) (policy : Retrigger) (stamp : Instant) : State :=
  match policy with
  | .ignore => s.setEntry e (s.entry e).missTrigger
  | .restart => s.startInEvent e stamp true
  | .holdOne =>
    if (s.entry e).heldTrigger.isSome then s.setEntry e (s.entry e).missTrigger
    else s.setEntry e { s.entry e with heldTrigger := some stamp }

/-- One visit of the walk of line `n` (Table 5-5). -/
def State.visit (s : State) (n : Fin 8) (stamp : Instant) (e : Fin 64) : State :=
  match (s.entry e).start with
  | some (.onTrigger _ mode policy) =>
    match (s.entry e).state, mode with
    | .pending, _ => s.triggerStart n e mode stamp
    | .running, .every => s.retrigger e policy stamp
    | .draining, _ => s.setEntry e (s.entry e).missTrigger
    | _, _ => s
  | _ => s

/-- The walk visits the entries that were in the list when it began, from head to tail (R88). -/
def State.walk (s : State) (n : Fin 8) (stamp : Instant) : State :=
  (s.line n).subs.foldl (fun s e => s.visit n stamp e) s

/-! ### Samples (R81, R82, R83) -/

/-- The change of accepted level to `level`, offered to edge qualification (R82, R83): the walk is taken in the same event,
stamped with the tick of the sample. -/
def State.acceptChange (s : State) (n : Fin 8) (level : Level) : State :=
  let s := s.setLine n { s.line n with accepted := some level, runLength := 0 }
  if (s.line n).edge.qualifies level then s.walk n s.now else s

/-- A sample of line `n` reads `level` (R82). -/
def State.filterSample (s : State) (n : Fin 8) (level : Level) : State :=
  let l := s.line n
  match l.accepted with
  | none => s.setLine n { l with accepted := some level, runLength := 0 }
  | some a =>
    if a = level then s.setLine n { l with runLength := 0 }
    else if l.depth ≤ l.runLength + 1 then s.acceptChange n level
    else s.setLine n { l with runLength := l.runLength + 1 }

/-- The level last present on TRGn. -/
def State.trgLevel (s : State) (n : Fin 8) : Level := if s.pins.trg.getLsbD n.val then .high else .low

/-- TRGn shows a level. -/
def State.setTrg (s : State) (n : Fin 8) (level : Level) : State :=
  s.setPins { s.pins with
    trg := if level = .high then s.pins.trg ||| (1#8 <<< n.val) else s.pins.trg &&& ~~~(1#8 <<< n.val) }

/-- At a tick event a line's `sample count` increases by one; at `sample divider` it returns to zero and the line owes a
sample in that tick event (R81). -/
def TriggerLine.count (l : TriggerLine) : TriggerLine :=
  if l.sampleDivider ≤ l.sampleCount + 1 then { l with sampleCount := 0, sampleDue := true }
  else { l with sampleCount := l.sampleCount + 1 }

/-- The sample that line `n` owes in the tick event in progress is taken (R81, R82). -/
def State.takeSample (s : State) (n : Fin 8) (level : Level) : State :=
  if (s.line n).sampleDue then (s.setLine n { s.line n with sampleDue := false }).filterSample n level else s

/-- The filter restarts (R96): the first sample comes at the `sample divider`-th tick event that follows. -/
def TriggerLine.restarted (l : TriggerLine) : TriggerLine :=
  { l with sampleCount := 0, accepted := none, runLength := 0, sampleDue := false }

end Sys2Proof.Machine
end

