-- ==== Sys2Proof/Machine/Dispatcher.lean ====
section
/-! DEFINITION. The dispatcher (section 4.4) and the tick event (R1, R2). -/

namespace Sys2Proof.Machine

/-! ### The overrun step (R71) -/

/-- The item at the head of the list, when its lateness exceeds 255. -/
def State.overdueHead (s : State) : Option DueItem :=
  match s.due with
  | i :: _ => if Config.overrunLimit < lateness i.due s.now then some i else none
  | [] => none

/-- One handing of the overrun step: an overdue item at the head is removed and its entry retires OVERRUN, with the chain
behind it (R71). -/
def State.overrunOne (s : State) : State :=
  match s.overdueHead with
  | some i => (s.removeDue i.entry).retireBroken i.entry .overrun
  | none => s

/-- The overrun step: as long as the head is overdue (R71). The fuel is the length of the list. -/
def State.overrunStep (s : State) : Nat → State
  | 0 => s
  | k + 1 => s.overrunOne.overrunStep k

/-! ### The action step (R72 to R74) -/

/-- The first item in list order that the dispatch has not passed over (R72). -/
def DispatchWork.examined (d : DispatchWork) (due : List DueItem) : Option DueItem :=
  due.find? fun i => !d.passed.contains i.entry

/-- The item the action step hands over next: capacity remains, the overrun step is complete, and the examined item is at
or before `now` and no more than 255 ticks late (R70, R72, R73). -/
def State.nextItem (s : State) : Option DueItem :=
  match s.dispatch with
  | none => none
  | some d =>
    if d.handed.length < Config.actionCapacity ∧ s.overdueHead = none then
      (d.examined s.due).filter fun i => atOrBefore i.due s.now && lateness i.due s.now ≤ Config.overrunLimit
    else none

/-- What the dispatch in progress remembers of an action it hands: the entry, and the items its action can hand back,
which are its own and that of a successor it starts (R74). -/
def DispatchWork.hand (d : DispatchWork) (e : Fin 64) (successor : Option (Fin 64)) : DispatchWork :=
  { handed := d.handed ++ [e], passed := d.passed ++ e :: successor.toList }

/-- One handing of the action step (R72). -/
def State.actionOne (s : State) : State :=
  match s.dispatch, s.nextItem with
  | some d, some i => (s.setDispatch (some (d.hand i.entry (s.entry i.entry).successor))).takeAction i.entry i.due
  | _, _ => s

/-- The action step: up to four handings (R72, R73). -/
def State.actionStep (s : State) : Nat → State
  | 0 => s
  | k + 1 => s.actionOne.actionStep k

/-- What is left of the dispatch in progress is carried out, and the dispatch is over (R70). -/
def State.finishDispatch (s : State) : State :=
  if s.dispatch.isSome then
    ((s.overrunStep s.due.length).actionStep Config.actionCapacity).setDispatch none
  else s

/-! ### The tick event (R1, R2) -/

/-- The parts of a tick event, in the order they are taken where none is given. -/
def tickUnits : List TickUnit :=
  .dispatch :: ((List.finRange 8).map TickUnit.sample ++ (List.finRange 4).map TickUnit.countdown)

/-- One part of the tick event in progress is taken; nothing where it has been taken already. -/
def State.takeUnit (s : State) : TickUnit → State
  | .dispatch => s.finishDispatch
  | .sample n => s.takeSample n (s.trgLevel n)
  | .countdown k => s.countdown k

/-- Parts of the tick event in progress are taken in the order of a list. -/
def State.takeUnits (s : State) (units : List TickUnit) : State := units.foldl State.takeUnit s

/-- What is left of the tick event in progress is completed, so that what follows finds the whole of it (R2). -/
def State.settle (s : State) : State := s.takeUnits tickUnits

/-- Every line counts the tick event (R81). -/
def State.countLines (s : State) : State :=
  (List.finRange 8).foldl (fun s n => s.setLine n (s.line n).count) s

/-- The strobe lines whose pulse is in progress before the tick event owe a countdown (R110). -/
def State.oweCountdowns (s : State) : State :=
  (List.finRange 4).foldl
    (fun s k => s.setStrobe k { s.strobe k with countdownDue := decide (0 < (s.strobe k).remaining) }) s

/-- The tick in progress ends (R1): `now` increases by one, the next tick begins with the recorded `divider`, and the tick
event reaches the three blocks that work in ticks (R2), with the TRG inputs at `levels` (R84). -/
def State.beginTick (s : State) (levels : BitVec 8) : State :=
  ((({ s with now := s.now + 1, tickPhase := 0, tickLength := s.divider, pins := { s.pins with trg := levels } }).setDispatch
    (some { handed := [], passed := [] })).countLines).oweCountdowns

/-- A tick event: what the last one left is completed, the tick ends, and the parts listed are taken in their order; the
others stay owed until a step or a later command takes them (log entry 3). -/
def State.tick (s : State) (levels : BitVec 8) (order : List TickUnit) : State :=
  (s.settle.beginTick levels).takeUnits order

end Sys2Proof.Machine
end

