-- ==== Sys2Proof/Machine/Trips.lean ====
section
/-! DEFINITION. Trip protection (chapter 8): the filters, the effect of a trip, the clear. -/

namespace Sys2Proof.Machine

/-! ### The effect of a trip (R131, R132, R133) -/

/-- One trip: the source and the group it trips (section 8.3). -/
structure Trip where
  source : TripId
  group : LaneGroup
  deriving DecidableEq, Repr

/-- The lanes of a group, lowest first. -/
def lanesOf (g : LaneGroup) : List (Fin 16) := (List.finRange 16).filter fun l => g.getLsbD l.val

/-- The claims a trip of the group finds: owner and heir of every lane of the group that no source holds yet (R131). -/
def State.recorded (s : State) (g : LaneGroup) (e : Fin 64) : Bool :=
  (lanesOf g).any fun l =>
    !(s.lane l).trippedBy.any && ((s.lane l).owner = some e || (s.lane l).heir = some e)

/-- The claims that the trips of one event find, each recorded once (R131, R133). -/
def State.recordedBy (s : State) (trips : List Trip) (e : Fin 64) : Bool := trips.any fun x => s.recorded x.group e

/-- The lane step on one lane: the source joins `tripped-by`, and where the set was empty the claims go (R131). -/
def Lane.tripped (l : Lane) (src : TripId) : Lane :=
  if l.trippedBy.any then { l with trippedBy := l.trippedBy.add src }
  else { l.unclaimed with trippedBy := l.trippedBy.add src }

/-- The lane step of a trip (R131). -/
def State.laneStep (s : State) (x : Trip) : State :=
  (lanesOf x.group).foldl (fun s l => s.setLane l ((s.lane l).tripped x.source)) s

/-- The entry step of a trip (R132): the recorded entries retire TRIPPED in order of number, and then the chains behind
them break. -/
def State.entryStep (s : State) (recorded : List (Fin 64)) : State :=
  let s := recorded.foldl (fun s e => s.retireOne e .tripped none) s
  recorded.foldl (fun s e => s.breakBehind e) s

/-- The trips of one event: the lane steps of all, then one entry step. Of two trips of one CLK edge this is the model's
reading (DESIGN CHOICE, log entry 25): every entry, lane and `retired at` ends the same in either order (R133), and so no chain
breaks before both groups' holders have retired. -/
def State.takeTrips (s : State) (trips : List Trip) : State :=
  (trips.foldl State.laneStep s).entryStep ((List.finRange 64).filter (s.recordedBy trips))

/-- A source trips a group of lanes: the lane step, then the entry step (section 8.3). It is one whole event, every break
included (R134). Two trips taken one after another are two such events, so that an entry of the second's group behind an entry of
the first's is CHAIN_BROKEN: they are trips of two CLK edges, and those of one are `State.takeTrips` (DESIGN CHOICE, log
entry 25). -/
def State.tripGroup (s : State) (src : TripId) (g : LaneGroup) : State := s.takeTrips [⟨src, g⟩]

/-- SOFT after an accepted TRIP (R135). -/
def SoftSource.tripped (r : SoftSource) (g : LaneGroup) : SoftSource :=
  if r.state = .quiet then { group := g, state := .latched } else { r with group := r.group ||| g }

/-- The lanes that an accepted TRIP trips: all it gives, or those it adds to the group of a LATCHED SOFT (R135). -/
def SoftSource.newly (r : SoftSource) (g : LaneGroup) : LaneGroup :=
  if r.state = .quiet then g else g &&& ~~~r.group

/-! ### The filters (R127 to R129) -/

/-- The reading of a level by a source (R127). -/
def TripSource.reads (r : TripSource) (level : Level) : InputState :=
  if level = r.activeLevel then .active else .inactive

/-- A restart of the filter (R128). -/
def TripSource.restarted (r : TripSource) : TripSource := { r with inputState := .inactive, runLength := 0 }

/-- The change of `input state` to the level read: to ACTIVE the source is HELD, to INACTIVE a HELD one is LATCHED (R129). -/
def TripSource.changedTo (r : TripSource) : InputState → TripSource
  | .active => { r with inputState := .active, runLength := 0, state := .held }
  | .inactive => { r with inputState := .inactive, runLength := 0, state := if r.state = .held then .latched else r.state }

/-- One sample of an enabled source (R128). -/
def TripSource.sampled (r : TripSource) (read : InputState) : TripSource :=
  if read = r.inputState then { r with runLength := 0 }
  else if r.depth ≤ r.runLength + 1 then r.changedTo read
  else { r with runLength := r.runLength + 1 }

/-- The record of a source after a CLK edge at which its input shows a level; a disabled source takes no sample (R127, R128). -/
def TripSource.atEdge (r : TripSource) (level : Level) : TripSource :=
  if r.enabled then r.sampled (r.reads level) else r

/-- K consecutive samples of an enabled source read `read`: where that is not its input state, the input state changes
(R128; log entry 6). -/
def TripSource.afterRun (r : TripSource) (read : InputState) : TripSource :=
  if r.enabled then (if r.inputState = read then { r with runLength := 0 } else r.changedTo read) else r

/-- The trip that a source's new record brings: of its group, where it goes from QUIET to HELD (R129). -/
def State.tripOf (s : State) (i : TripInput) (r : TripSource) : List Trip :=
  if (s.trip i).state = .quiet ∧ r.state = .held then [⟨tripIdOf i, r.group⟩] else []

/-- A source takes a new record, with the trip that brings. -/
def State.changeSource (s : State) (i : TripInput) (r : TripSource) : State := (s.setTrip i r).takeTrips (s.tripOf i r)

/-- The level last present on TRIPA or TRIPB. -/
def State.tripPin (s : State) : TripInput → Level
  | .a => s.pins.tripA
  | .b => s.pins.tripB

/-- TRIPA or TRIPB shows a level. -/
def State.setTripPin (s : State) (i : TripInput) (level : Level) : State :=
  match i with
  | .a => s.setPins { s.pins with tripA := level }
  | .b => s.setPins { s.pins with tripB := level }

/-- A source samples its input at a CLK edge (R127, R128). -/
def State.sampleTripPin (s : State) (i : TripInput) (level : Level) : State :=
  (s.setTripPin i level).changeSource i ((s.trip i).atEdge level)

/-- K consecutive samples of a source read `read` (R128; log entry 6). -/
def State.tripRun (s : State) (i : TripInput) (read : InputState) : State :=
  s.changeSource i ((s.trip i).afterRun read)

/-! ### The clear (R136) -/

/-- A source leaves every `tripped-by` set. -/
def State.releaseTrip (s : State) (src : TripId) : State :=
  (List.finRange 16).foldl
    (fun s l => s.setLane l { s.lane l with trippedBy := (s.lane l).trippedBy.remove src }) s

end Sys2Proof.Machine
end

