-- ==== Sys2Proof/Machine/LineRequests.lean ====
section
/-! DEFINITION. The trigger, lane, strobe and trip requests as their owners carry them out (chapters 5, 6 and 8; checks in
the order of chapter 10), and the link's own: NOP, SUMMARY, SOFT_RESET. A request function answers the state it leaves and
the status and payload it returns (R146). -/

namespace Sys2Proof.Machine

/-! ### TRIGGER_CONFIG (R95, R96, R162) -/

/-- The record of a line after an accepted TRIGGER_CONFIG: a change of divider or depth restarts the filter (R96). -/
def TriggerLine.configure (l : TriggerLine) (edge : EdgeSelect) (sampleDivider depth : Nat) : TriggerLine :=
  let l' := { l with edge := edge, sampleDivider := sampleDivider, depth := depth }
  if l.sampleDivider = sampleDivider ∧ l.depth = depth then l' else l'.restarted

/-- TRIGGER_CONFIG (R95, R96; check of R162). -/
def reqTriggerConfig (line edge sampleDivider depth : Byte) (s : State) : State × Answer :=
  match lineOf line, edgeOf edge, sampleDividerOf sampleDivider, depthOf depth with
  | some n, some e, some sd, some k => (s.setLine n ((s.line n).configure e sd k), .ok)
  | _, _, _, _ => (s, .refusal .paramRange)

/-! ### Lane requests (R104 to R107, R163) -/

/-- LANE_CONFIG: PARAM_RANGE, then LANE_BUSY (R104, R163). -/
def reqLaneConfig (lane polarity safeLevel : Byte) (s : State) : State × Answer :=
  match laneOf lane, polarityOf polarity, pinLevelOf safeLevel with
  | some l, some p, some sl =>
    if (s.lane l).owner ≠ none then (s, .refusal .laneBusy)
    else (s.setLane l { s.lane l with polarity := p, safeLevel := sl }, .ok)
  | _, _, _ => (s, .refusal .paramRange)

/-- LANE_SET: PARAM_RANGE, then LANE_TRIPPED, then LANE_BUSY (R105, R163). -/
def reqLaneSet (lane value : Byte) (s : State) : State × Answer :=
  match laneOf lane, forcedOf value with
  | some l, some f =>
    if (s.lane l).trippedBy.any then (s, .refusal .laneTripped)
    else if (s.lane l).owner ≠ none then (s, .refusal .laneBusy)
    else (s.setLane l { s.lane l with forced := f }, .ok)
  | _, _ => (s, .refusal .paramRange)

/-- LANE_QUERY: the record as it stands (R107, R163). -/
def reqLaneQuery (lane : Byte) (s : State) : State × Answer :=
  match laneOf lane with
  | some l => (s, { status := .ok, payload := laneQueryPayload l (s.lane l) })
  | none => (s, .refusal .paramRange)

/-! ### STROBE_CONFIG (R112, R162) -/

/-- STROBE_CONFIG: the width of the next pulse (R112). -/
def reqStrobeConfig (strobe width : Byte) (s : State) : State × Answer :=
  match strobeLineOf strobe with
  | some k =>
    if width = 0 then (s, .refusal .paramRange)
    else (s.setStrobe k { s.strobe k with width := width.toNat }, .ok)
  | none => (s, .refusal .paramRange)

/-! ### Trip requests (R135 to R137, R164) -/

/-- A source keeps its filter in a new configuration: it stays enabled with the same active level and depth (R137). -/
def TripSource.keepsFilter (r r' : TripSource) : Bool :=
  r.enabled && r'.enabled && r.activeLevel = r'.activeLevel && r.depth = r'.depth

/-- The record of source A or B after an accepted TRIP_CONFIG: the filter restarts unless the source keeps it (R137). -/
def TripSource.configure (r : TripSource) (enabled : Bool) (activeLevel : Level) (depth : Nat) (group : LaneGroup) :
    TripSource :=
  let r' := { r with enabled := enabled, activeLevel := activeLevel, depth := depth, group := group }
  if r.keepsFilter r' then r' else r'.restarted

/-- TRIP_CONFIG: PARAM_RANGE, then TRIP_ACTIVE (R137, R164). -/
def reqTripConfig (source enabled activeLevel depth : Byte) (group : LaneGroup) (s : State) : State × Answer :=
  match tripInputOf source, yesNoOf enabled, levelOf activeLevel, depthOf depth with
  | some i, some en, some al, some k =>
    if (s.trip i).state ≠ .quiet then (s, .refusal .tripActive)
    else (s.setTrip i ((s.trip i).configure en al k group), .ok)
  | _, _, _, _ => (s, .refusal .paramRange)

/-- SOFT's record is replaced. -/
def State.setSoft (s : State) (r : SoftSource) : State := { s with soft := r }

/-- TRIP: SOFT is LATCHED, its group grows by the lanes given, and the lanes newly in it are tripped (R135). -/
def reqTrip (group : LaneGroup) (s : State) : State × Answer :=
  if group = 0 then (s, .refusal .paramRange)
  else ((s.setSoft (s.soft.tripped group)).tripGroup .soft (s.soft.newly group), .ok)

/-- A LATCHED source becomes QUIET and leaves every `tripped-by` set; SOFT's group is emptied (R136). -/
def State.clearSource (s : State) (src : TripId) : State :=
  (match src with
    | .a => s.setTrip .a { s.tripA with state := .quiet }
    | .b => s.setTrip .b { s.tripB with state := .quiet }
    | .soft => s.setSoft { group := 0, state := .quiet }).releaseTrip src

/-- CLEAR_TRIP (R136; checks of R164). -/
def reqClearTrip (source : Byte) (s : State) : State × Answer :=
  match tripIdOfByte source with
  | some src => match s.tripState src with
    | .held => (s, .refusal .tripActive)
    | .latched => (s.clearSource src, .ok)
    | .quiet => (s, .ok)
  | none => (s, .refusal .paramRange)

/-! ### Link requests (R150 to R152, R165) -/

/-- NOP (R151). -/
def reqNop (s : State) : State × Answer := (s, .ok)

/-- SUMMARY (R150, R165). -/
def reqSummary (s : State) : State × Answer := (s, { status := .ok, payload := summaryPayload s })

/-- Every lane loses owner, heir and forced level, with `call` INACTIVE (R108). -/
def State.clearClaims (s : State) : State :=
  (List.finRange 16).foldl (fun s l => s.setLane l (s.lane l).unclaimed) s

/-- Every subscription list is emptied (R97). -/
def State.clearSubscriptions (s : State) : State :=
  (List.finRange 8).foldl (fun s n => s.setLine n { s.line n with subs := [] }) s

/-- Every entry is FREE, which is no retirement (R37). -/
def State.freeEntries (s : State) : State := { s with entries := Vector.replicate 64 Entry.free }

/-- SOFT_RESET (R152: R37, R80, R97, R108; the timebase, configurations, strobes and trips are kept). -/
def reqSoftReset (s : State) : State × Answer :=
  ((((s.freeEntries.setDue []).setDispatch none).clearSubscriptions).clearClaims, .ok)

end Sys2Proof.Machine
end

