-- ==== Sys2Proof/Machine/TimeRequests.lean ====
section
/-! DEFINITION. The time requests as their owner, the timebase, carries them out (section 1.5, R155). A request function
answers the state it leaves and the status and payload it returns (R146). -/

namespace Sys2Proof.Machine

/-- READ_TIME: `now` and the `divider` of the next tick (R8, R155). -/
def reqReadTime (s : State) : State × Answer :=
  (s, { status := .ok, payload := bytes4 s.now ++ bytes2 (BitVec.ofNat 16 s.divider) })

/-- A new value of `now`: the tick in progress is abandoned and a new one begins (R10). -/
def State.restartTick (s : State) (value : Instant) : State :=
  { s with now := value, tickPhase := 0, tickLength := s.divider }

/-- SET_TIME (R9, R10). -/
def reqSetTime (value : Instant) (s : State) : State × Answer :=
  if s.timebaseBusy then (s, .refusal .timebaseBusy) else (s.restartTick value, .ok)

/-- A divider in range is recorded for the ticks that begin from now on (R12). -/
def State.recordDivider (s : State) (m : Nat) : State := { s with divider := m }

/-- SET_DIVIDER: PARAM_RANGE before TIMEBASE_BUSY (R12, R13, R155). -/
def reqSetDivider (value : BitVec 16) (s : State) : State × Answer :=
  if value.toNat < 1 ∨ 256 < value.toNat then (s, .refusal .paramRange)
  else if s.timebaseBusy then (s, .refusal .timebaseBusy)
  else (s.recordDivider value.toNat, .ok)

end Sys2Proof.Machine
end

