-- ==== Sys2Proof/Machine/Link.lean ====
section
/-! DEFINITION. The link controller (chapter 9): the judgement of a transaction, the owner of each request, the execution and
the response buffer. -/

namespace Sys2Proof.Machine

/-- The owner of a request carries it out (R146): the state it leaves, its status and payload. A command that is no
request has no owner. -/
def serve (i : Instr) (s : State) : Option (State × Answer) :=
  match i with
  | .nop _ => some (reqNop s)
  | .readTime _ => some (reqReadTime s)
  | .setTime _ v => some (reqSetTime v s)
  | .setDivider _ m => some (reqSetDivider m s)
  | .define _ e l d w p n st nt => some (reqDefine e l d w p n st nt s)
  | .schedule _ e k b => some (reqSchedule e k b s)
  | .scheduleSet _ c k b members => some (reqScheduleSet c k b members s)
  | .amend _ e m d w p n => some (reqAmend e m d w p n s)
  | .drain _ e => some (reqDrain e s)
  | .cancel _ e => some (reqCancel e s)
  | .query _ e => some (reqQuery e s)
  | .ack _ e => some (reqAck e s)
  | .release _ e => some (reqRelease e s)
  | .summary _ => some (reqSummary s)
  | .triggerConfig _ l e sd k => some (reqTriggerConfig l e sd k s)
  | .laneConfig _ l p sl => some (reqLaneConfig l p sl s)
  | .laneSet _ l v => some (reqLaneSet l v s)
  | .laneQuery _ l => some (reqLaneQuery l s)
  | .strobeConfig _ k w => some (reqStrobeConfig k w s)
  | .tripConfig _ src en al k g => some (reqTripConfig src en al k g s)
  | .trip _ g => some (reqTrip g s)
  | .clearTrip _ src => some (reqClearTrip src s)
  | .softReset _ => some (reqSoftReset s)
  | .powerOn | .resetNAssert | .resetNRelease | .overrun | .action | .csNFall | .csNRise | .executionEnd => none
  | .tickEvent _ _ | .triggerSample _ _ | .tripFilterSample _ _ => none
  | .strobePulseEnd _ | .qualifiedEdge _ | .tripInputActive _ | .tripInputInactive _ | .byteReceived _ => none

/-- Replace the response buffer. -/
def State.setBuffer (s : State) (b : Buffer) : State := s.setLink { s.link with buffer := b, age := 0 }

/-- The answer of a request's owner at its take point, with the whole of a tick event in progress before it (R2, R146). A
command that is no request is answered BAD_REQUEST, as a code that names none (R143). -/
def State.serveSettled (s : State) (i : Instr) : State × Answer :=
  (serve i s.settle).getD (s, .refusal .badRequest)

/-- The end of an execution (R146): a request not yet taken is taken now, the response frame with its CRC is built and
placed in the buffer, and the buffer is READY. Nothing where no execution is in progress. -/
def State.endExecution (s : State) : State :=
  match s.link.buffer with
  | .executing (.waiting i) =>
    let (t, a) := s.serveSettled i
    t.setBuffer (.ready (responseFrame i.tag a))
  | .executing (.answered tag a) => s.setBuffer (.ready (responseFrame tag a))
  | .empty | .ready _ => s

/-- The take point of the request in execution (R146): its owner takes it, and the answer waits for the end. -/
def State.takeRequest (s : State) (i : Instr) (own : State → State × Answer) : State :=
  let (t, a) := own s.settle
  t.setLink { t.link with buffer := .executing (.answered i.tag a) }

/-- A request that is not the one in execution stands for its whole execution: any other execution has ended before it,
and it is judged, taken and answered in one (log entry 2). -/
def State.wholeRequest (s : State) (i : Instr) (own : State → State × Answer) : State :=
  let (t, a) := own s.endExecution.settle
  t.setBuffer (.ready (responseFrame i.tag a))

/-- A request command: the take point of the request in execution where it is that one, else a whole execution. While
RESET_N is low no request reaches an owner (R36, R153). -/
def State.request (s : State) (i : Instr) (own : State → State × Answer) : State :=
  s.whenRunning fun s =>
    if s.link.buffer = .executing (.waiting i) then s.takeRequest i own else s.wholeRequest i own

/-! ### Transactions -/

/-- The frame chosen at CS_N fall and the transaction state (R140). -/
def Buffer.chosen : Buffer → List Byte × Transaction
  | .ready frame => (frame, .ordinary)
  | .empty => (responseFrame 0 (.refusal .noResponse), .ordinary)
  | .executing _ => (responseFrame 0 (.refusal .notReady), .discarding)

/-- A transaction opens (R139, R140). -/
def Link.openTransaction (l : Link) : Link :=
  { l with transaction := l.buffer.chosen.2, outgoing := some l.buffer.chosen.1, received := [], count := 0 }

/-- The transaction state becomes CLOSED, and nothing else changes (R143 of 0 bytes, R153). -/
def Link.close (l : Link) : Link := { l with transaction := .closed }

/-- A transaction closes with its received bytes used or discarded: they belong to the open transaction (Table 9-1, R147;
DEDUCED, log entry 24). No rule takes the outgoing frame away before the next CS_N fall or reset. -/
def Link.closeTransaction (l : Link) : Link := { l.close with received := [], count := 0 }

/-- The execution that a judgement begins (R143, R144); none where the transaction is ignored. -/
def executionOf : Judgement → Option Execution
  | .ignored => none
  | .frameError tag => some (.answered tag (.refusal .frameError))
  | .badRequest tag => some (.answered tag (.refusal .badRequest))
  | .wrongLength tag => some (.answered tag (.refusal .paramRange))
  | .executed i => some (.waiting i)

/-- The close of an ORDINARY transaction (R143, R145): a judgement moves the buffer to EXECUTING; an ignored transaction of 0
bytes leaves the buffer, the outgoing frame and every other state unchanged. -/
def Link.judged (l : Link) (j : Judgement) : Link :=
  match executionOf j with
  | none => l.close
  | some x => { l.closeTransaction with buffer := .executing x, age := 0 }

/-- CS_N rises: an ORDINARY transaction is judged, a DISCARDING one is not (R147), WAIT_HIGH ends (R153). -/
def Link.rise (l : Link) : Link :=
  match l.transaction with
  | .ordinary => l.judged (judge l.count l.received)
  | .discarding => l.closeTransaction
  | .waitHigh => l.close
  | .closed => l

/-- A byte is received whole (R139): counted, and kept when it is among the first 64. -/
def Link.receive (l : Link) (b : Byte) : Link :=
  match l.transaction with
  | .ordinary | .discarding =>
    { l with received := if l.received.length < Config.keptBytes then l.received ++ [b] else l.received,
             count := l.count + 1 }
  | .closed | .waitHigh => l

end Sys2Proof.Machine
end

