-- ==== Sys2Proof/Machine/Clock.lean ====
section
/-! DEFINITION. One CLK edge, which passes when no command waits (log entry 4): the timebase counts it in its tick phase (R1),
the enabled trip sources sample their inputs (R128), and an execution lasts one period more, to its bound (R146). A request
taken on the edge may leave a part of the edge that is still to come nothing to do (R10, R137), and the trips of the edge are
taken as one (R133). -/

namespace Sys2Proof.Machine

/-- The timebase counts one CLK period; when the phase has counted the length of the tick in progress, that tick ends (R1),
and the whole tick event is taken, its parts in the order given (R2). -/
def State.clkTimebase (s : State) (tickOrder : List TickUnit) : State :=
  if s.tickLength ≤ s.tickPhase + 1 then s.tick s.pins.trg tickOrder
  else { s with tickPhase := s.tickPhase + 1 }

/-- The execution in progress has lasted its bound when this CLK period has passed (R146). -/
def State.executionEndsHere (s : State) : Bool :=
  match s.link.buffer with
  | .executing _ => Config.executionBound ≤ s.link.age + 1
  | .empty | .ready _ => false

/-- An execution lasts one CLK period more, and ends when it has lasted 160 (R146). -/
def State.clkExecution (s : State) : State :=
  match s.link.buffer with
  | .executing _ => if s.executionEndsHere then s.endExecution else s.setLink { s.link with age := s.link.age + 1 }
  | .empty | .ready _ => s

/-- The parts of a CLK edge. -/
def edgeUnits : List Config.EdgeUnit := [.timebase, .tripSamples, .execution]

/-! ### Trips of one edge (R133) -/

/-- The TRIP that the execution ending on this edge takes and accepts: its tag and its group (R135, R146). -/
def State.tripEndsHere (s : State) : Option (Byte × LaneGroup) :=
  match s.link.buffer with
  | .executing (.waiting (.trip tag g)) => if s.executionEndsHere && decide (g ≠ 0) then some (tag, g) else none
  | _ => none

/-- Source A or B after the samples of this edge; a filter that has restarted on the edge takes none (R128, R137). -/
def State.sourceAtEdge (s : State) (restarted : List TripInput) (i : TripInput) : TripSource :=
  if restarted.contains i then s.trip i else (s.trip i).atEdge (s.tripPin i)

/-- A and B sample their inputs, and the trips of the edge are taken as one, with that of SOFT where the execution of a TRIP
ends here (R128, R133, R135). That they are one event is the model's reading of R133 (DESIGN CHOICE, log entry 25). -/
def State.clkTrips (s : State) (restarted : List TripInput) : State :=
  let a := s.sourceAtEdge restarted .a
  let b := s.sourceAtEdge restarted .b
  let u := (s.setTrip .a a).setTrip .b b
  let trips := s.tripOf .a a ++ s.tripOf .b b
  match s.tripEndsHere with
  | none => u.takeTrips trips
  | some (tag, g) =>
    ((u.setSoft (s.soft.tripped g)).takeTrips (trips ++ [⟨.soft, s.soft.newly g⟩])).setBuffer
      (.ready (responseFrame tag .ok))

/-! ### A request taken on the edge -/

/-- A SET_TIME is taken and accepted on this edge: it abandons the tick in progress, and the tick that begins at its take
point counts from the next edge (R10). -/
def State.abandonsTick (s : State) : Bool :=
  match s.link.buffer with
  | .executing (.waiting (.setTime tag v)) =>
    s.executionEndsHere && decide ((s.serveSettled (.setTime tag v)).2.status = .ok)
  | _ => false

/-- The filter of a source restarts on this edge, by a TRIP_CONFIG that the execution's end takes: the sample of the edge is
discarded, and sampling goes on at the next (R137). -/
def State.restartsFilter (s : State) (i : TripInput) : Bool :=
  (s.clkExecution.trip i).enabled && !(s.trip i).keepsFilter (s.clkExecution.trip i)

/-- The parts of a CLK edge to which a part taken on a state leaves nothing to do: the count of a tick that SET_TIME abandons
(R10), and whichever of the samples and the end of a TRIP comes second, for the first takes both (R133; log entry 25). -/
def State.overtaken (s : State) : Config.EdgeUnit → List Config.EdgeUnit
  | .timebase => []
  | .tripSamples => if s.tripEndsHere.isSome then [.execution] else []
  | .execution => if s.abandonsTick then [.timebase] else if s.tripEndsHere.isSome then [.tripSamples] else []

/-- The sources whose filter a part of a CLK edge restarts (R137). -/
def State.restartedBy (s : State) : Config.EdgeUnit → List TripInput
  | .timebase | .tripSamples => []
  | .execution => [.a, .b].filter s.restartsFilter

/-- One part of a CLK edge. -/
def State.clkUnit (s : State) (tickOrder : List TickUnit) (restarted : List TripInput) : Config.EdgeUnit → State
  | .timebase => s.clkTimebase tickOrder
  | .tripSamples => s.clkTrips restarted
  | .execution => if s.tripEndsHere.isSome then s.clkTrips restarted else s.clkExecution

/-- A CLK edge in progress: the state that the parts taken so far leave, the parts they overtook, and the sources whose
filter they restarted. -/
structure EdgeWork where
  state : State
  overtaken : List Config.EdgeUnit
  restarted : List TripInput
  deriving DecidableEq, Repr

/-- One part of a CLK edge is taken, unless an earlier one overtook it. -/
def EdgeWork.take (tickOrder : List TickUnit) (w : EdgeWork) (u : Config.EdgeUnit) : EdgeWork :=
  if w.overtaken.contains u then w
  else
    { state := w.state.clkUnit tickOrder w.restarted u
      overtaken := w.overtaken ++ w.state.overtaken u
      restarted := w.restarted ++ w.state.restartedBy u }

/-- A tick that begins on this edge runs with the `divider` recorded when the edge is over, which is that of a SET_DIVIDER
taken on the edge in either order (R12). -/
def State.beginsWithDivider (s : State) : State :=
  if s.tickPhase = 0 then { s with tickLength := s.divider } else s

/-- One CLK edge, its parts and those of a tick event that ends on it taken in the orders given. -/
def State.clkPartsIn (s : State) (order : List Config.EdgeUnit) (tickOrder : List TickUnit) : State :=
  (order.foldl (EdgeWork.take tickOrder) { state := s, overtaken := [], restarted := [] }).state.beginsWithDivider

/-- One CLK edge: its parts in a free order (R2, R129, R133, R146). -/
def State.clkParts (s : State) : State :=
  s.clkPartsIn (orderedBy (Config.edgeOrder s.clkEdges) edgeUnits) (orderedBy (Config.tickOrder s.clkEdges) tickUnits)

/-- One CLK edge, after what is left of a tick event in progress; none is counted while RESET_N is low (R3, R138). -/
def State.clkEdge (s : State) : State :=
  s.whenRunning fun s =>
    let t := s.settle.clkParts
    { t with clkEdges := t.clkEdges + 1 }

end Sys2Proof.Machine
end

