-- ==== Sys2Proof/Machine/EntryCommands.lean ====
section
/-! DEFINITION. The entry requests as commands (chapters 2, 3 and 7). -/

namespace Sys2Proof.Machine

/-- DEFINE (R20). -/
def execDefine (tag entry lane : Byte) (delay width period : Ticks) (count : Count) (strobe notify : Byte) (s : State) :
    Host.Outcome State Fault Refusal :=
  .next (s.request (.define tag entry lane delay width period count strobe notify)
    (reqDefine entry lane delay width period count strobe notify))

/-- SCHEDULE (R22). -/
def execSchedule (tag entry kind : Byte) (block : StartBlock) (s : State) : Host.Outcome State Fault Refusal :=
  .next (s.request (.schedule tag entry kind block) (reqSchedule entry kind block))

/-- SCHEDULE_SET (R125). -/
def execScheduleSet (tag count kind : Byte) (block : StartBlock) (members : List Byte) (s : State) :
    Host.Outcome State Fault Refusal :=
  .next (s.request (.scheduleSet tag count kind block members) (reqScheduleSet count kind block members))

/-- AMEND (R56). -/
def execAmend (tag entry mask : Byte) (delay width period : Ticks) (count : Count) (s : State) :
    Host.Outcome State Fault Refusal :=
  .next (s.request (.amend tag entry mask delay width period count) (reqAmend entry mask delay width period count))

/-- DRAIN (R59). -/
def execDrain (tag entry : Byte) (s : State) : Host.Outcome State Fault Refusal :=
  .next (s.request (.drain tag entry) (reqDrain entry))

/-- CANCEL (R62). -/
def execCancel (tag entry : Byte) (s : State) : Host.Outcome State Fault Refusal :=
  .next (s.request (.cancel tag entry) (reqCancel entry))

/-- QUERY (R33). -/
def execQuery (tag entry : Byte) (s : State) : Host.Outcome State Fault Refusal :=
  .next (s.request (.query tag entry) (reqQuery entry))

/-- ACK (R34). -/
def execAck (tag entry : Byte) (s : State) : Host.Outcome State Fault Refusal :=
  .next (s.request (.ack tag entry) (reqAck entry))

/-- RELEASE (R35). -/
def execRelease (tag entry : Byte) (s : State) : Host.Outcome State Fault Refusal :=
  .next (s.request (.release tag entry) (reqRelease entry))

end Sys2Proof.Machine
end

