-- ==== Sys2Proof/Machine/LineCommands.lean ====
section
/-! DEFINITION. The trigger, lane, strobe and trip requests as commands (chapters 5, 6 and 8). -/

namespace Sys2Proof.Machine

/-- TRIGGER_CONFIG (R95). -/
def execTriggerConfig (tag line edge sampleDivider depth : Byte) (s : State) : Host.Outcome State Fault Refusal :=
  .next (s.request (.triggerConfig tag line edge sampleDivider depth) (reqTriggerConfig line edge sampleDivider depth))

/-- LANE_CONFIG (R104). -/
def execLaneConfig (tag lane polarity safeLevel : Byte) (s : State) : Host.Outcome State Fault Refusal :=
  .next (s.request (.laneConfig tag lane polarity safeLevel) (reqLaneConfig lane polarity safeLevel))

/-- LANE_SET (R105). -/
def execLaneSet (tag lane value : Byte) (s : State) : Host.Outcome State Fault Refusal :=
  .next (s.request (.laneSet tag lane value) (reqLaneSet lane value))

/-- LANE_QUERY (R107). -/
def execLaneQuery (tag lane : Byte) (s : State) : Host.Outcome State Fault Refusal :=
  .next (s.request (.laneQuery tag lane) (reqLaneQuery lane))

/-- STROBE_CONFIG (R112). -/
def execStrobeConfig (tag strobe width : Byte) (s : State) : Host.Outcome State Fault Refusal :=
  .next (s.request (.strobeConfig tag strobe width) (reqStrobeConfig strobe width))

/-- TRIP_CONFIG (R137). -/
def execTripConfig (tag source enabled activeLevel depth : Byte) (group : LaneGroup) (s : State) :
    Host.Outcome State Fault Refusal :=
  .next (s.request (.tripConfig tag source enabled activeLevel depth group)
    (reqTripConfig source enabled activeLevel depth group))

/-- TRIP (R135). -/
def execTrip (tag : Byte) (group : LaneGroup) (s : State) : Host.Outcome State Fault Refusal :=
  .next (s.request (.trip tag group) (reqTrip group))

/-- CLEAR_TRIP (R136). -/
def execClearTrip (tag source : Byte) (s : State) : Host.Outcome State Fault Refusal :=
  .next (s.request (.clearTrip tag source) (reqClearTrip source))

end Sys2Proof.Machine
end

