-- ==== Sys2Proof/Machine/LinkCommands.lean ====
section
/-! DEFINITION. The events of the link (CS_N_FALL, BYTE_RECEIVED, CS_N_RISE, EXECUTION_END) and its own requests (NOP,
SUMMARY, SOFT_RESET). CS_N is a pin: its level is kept while RESET_N is low, when the part does not read it (R153). -/

namespace Sys2Proof.Machine

/-- CS_N_FALL (R139, R140): a transaction opens. -/
def execCsNFall (s : State) : Host.Outcome State Fault Refusal :=
  .next ((s.setPins { s.pins with csN := .low }).whenRunning fun s =>
    if s.link.transaction = .closed then s.setLink s.link.openTransaction else s)

/-- CS_N_RISE (R143, R147, R153): the transaction closes. -/
def execCsNRise (s : State) : Host.Outcome State Fault Refusal :=
  .next ((s.setPins { s.pins with csN := .high }).whenRunning fun s => s.setLink s.link.rise)

/-- BYTE_RECEIVED (R139). -/
def execByteReceived (byte : Byte) (s : State) : Host.Outcome State Fault Refusal :=
  .next (s.whenRunning fun s => s.setLink (s.link.receive byte))

/-- EXECUTION_END (R146). -/
def execExecutionEnd (s : State) : Host.Outcome State Fault Refusal :=
  .next (s.whenRunning State.endExecution)

/-- NOP (R151). -/
def execNop (tag : Byte) (s : State) : Host.Outcome State Fault Refusal :=
  .next (s.request (.nop tag) reqNop)

/-- SUMMARY (R150). -/
def execSummary (tag : Byte) (s : State) : Host.Outcome State Fault Refusal :=
  .next (s.request (.summary tag) reqSummary)

/-- SOFT_RESET (R152). -/
def execSoftReset (tag : Byte) (s : State) : Host.Outcome State Fault Refusal :=
  .next (s.request (.softReset tag) reqSoftReset)

end Sys2Proof.Machine
end

