-- ==== Sys2Proof/Machine/ResetCommands.lean ====
section
/-! DEFINITION. POWER_ON, RESET_N_ASSERT and RESET_N_RELEASE (R3, R36, R80, R97, R108, R114, R138, R153). -/

namespace Sys2Proof.Machine

/-- The transaction state when reset ends: WAIT_HIGH if CS_N is low, else CLOSED (R153). -/
def transactionAfterReset (csN : Level) : Transaction := if csN = .low then .waitHigh else .closed

/-- Every block at its reset values, with the input pins as given and the queue kept. -/
def State.blocksReset (s : State) (pins : Pins) (transaction : Transaction) : State :=
  { State.reset with
    pending := s.pending
    pins := pins
    link := { Link.reset with transaction := transaction }
    clkEdges := s.clkEdges }

/-- POWER_ON (R3): power-on gives the values of RESET_N. Where RESET_N is held low the part stays in reset. -/
def execPowerOn (s : State) : Host.Outcome State Fault Refusal :=
  .next (s.blocksReset s.pins (if s.inReset then .closed else transactionAfterReset s.pins.csN))

/-- RESET_N_ASSERT (R153): any open transaction and any execution end without a response, and the part is held in reset. -/
def execResetNAssert (s : State) : Host.Outcome State Fault Refusal :=
  .next (s.blocksReset { s.pins with resetN := .low } .closed)

/-- RESET_N_RELEASE (R3, R153): the part leaves reset; nothing where RESET_N is high already (log entry 5). -/
def execResetNRelease (s : State) : Host.Outcome State Fault Refusal :=
  .next (if s.inReset then s.blocksReset { s.pins with resetN := .high } (transactionAfterReset s.pins.csN) else s)

end Sys2Proof.Machine
end

