-- ==== Sys2Proof/Machine/TickCommands.lean ====
section
/-! DEFINITION. TICK_EVENT and the steps of a tick event: OVERRUN, ACTION, STROBE_PULSE_END, TRIGGER_SAMPLE and QUALIFIED_EDGE.
A step whose cause does not hold in the state it meets does not occur, and nothing changes (log entry 5). -/

namespace Sys2Proof.Machine

/-- TICK_EVENT (R1, R2, R70). -/
def execTickEvent (levels : BitVec 8) (order : List TickUnit) (s : State) : Host.Outcome State Fault Refusal :=
  .next (s.whenRunning fun s => s.tick levels order)

/-- OVERRUN (R71): one handing of the overrun step of the dispatch in progress. -/
def execOverrun (s : State) : Host.Outcome State Fault Refusal :=
  .next (s.whenRunning fun s => if s.dispatch.isSome then s.overrunOne else s)

/-- ACTION (R43, R72): one handing of the action step of the dispatch in progress. -/
def execAction (s : State) : Host.Outcome State Fault Refusal :=
  .next (s.whenRunning State.actionOne)

/-- STROBE_PULSE_END (R110): the countdown a line owes in the tick event in progress takes `remaining` from 1 to 0. -/
def execStrobePulseEnd (strobe : Fin 4) (s : State) : Host.Outcome State Fault Refusal :=
  .next (s.whenRunning fun s =>
    if (s.strobe strobe).countdownDue ∧ (s.strobe strobe).remaining = 1 then s.countdown strobe else s)

/-- TRIGGER_SAMPLE (R82): the sample a line owes in the tick event in progress reads `level`. -/
def execTriggerSample (line : Fin 8) (level : Level) (s : State) : Host.Outcome State Fault Refusal :=
  .next (s.whenRunning fun s =>
    if (s.line line).sampleDue then (s.setTrg line level).takeSample line level else s)

/-- A differing sample of the line is the K-th of its run (R82). -/
def TriggerLine.atLastDiffering (l : TriggerLine) : Bool := l.depth ≤ l.runLength + 1

/-- QUALIFIED_EDGE (R83): the sample a line owes in the tick event in progress is the K-th that differs from its accepted
level, and `edge` selects the change. -/
def execQualifiedEdge (line : Fin 8) (s : State) : Host.Outcome State Fault Refusal :=
  .next (s.whenRunning fun s =>
    match (s.line line).accepted with
    | some a =>
      if (s.line line).sampleDue ∧ (s.line line).atLastDiffering ∧ (s.line line).edge.qualifies (otherLevel a) then
        (s.setTrg line (otherLevel a)).takeSample line (otherLevel a)
      else s
    | none => s)

end Sys2Proof.Machine
end

