-- ==== Sys2Proof/Machine/TimeCommands.lean ====
section
/-! DEFINITION. The time requests as commands (R8, R10, R12). -/

namespace Sys2Proof.Machine

/-- READ_TIME (R8). -/
def execReadTime (tag : Byte) (s : State) : Host.Outcome State Fault Refusal :=
  .next (s.request (.readTime tag) reqReadTime)

/-- SET_TIME (R10). -/
def execSetTime (tag : Byte) (value : Instant) (s : State) : Host.Outcome State Fault Refusal :=
  .next (s.request (.setTime tag value) (reqSetTime value))

/-- SET_DIVIDER (R12). -/
def execSetDivider (tag : Byte) (value : BitVec 16) (s : State) : Host.Outcome State Fault Refusal :=
  .next (s.request (.setDivider tag value) (reqSetDivider value))

end Sys2Proof.Machine
end

