-- ==== Sys2Proof/Machine/TripCommands.lean ====
section
/-! DEFINITION. The events of the trip inputs: TRIP_FILTER_SAMPLE, TRIP_INPUT_ACTIVE, TRIP_INPUT_INACTIVE (R128, R129). Each
finds the whole of a tick event in progress before it (R134). -/

namespace Sys2Proof.Machine

/-- TRIP_FILTER_SAMPLE (R128, R129): the source's input reads `level` at a CLK edge. -/
def execTripFilterSample (source : TripInput) (level : Level) (s : State) : Host.Outcome State Fault Refusal :=
  .next (s.whenRunning fun s => s.settle.sampleTripPin source level)

/-- The pin level that a source reads as an input state (R127). -/
def TripSource.levelFor (r : TripSource) : InputState → Level
  | .active => r.activeLevel
  | .inactive => otherLevel r.activeLevel

/-- K consecutive samples of an enabled source read an input state, which its pin then shows; they find the whole of a tick
event in progress before them. A disabled source takes no sample (log entry 5). -/
def State.tripReads (s : State) (i : TripInput) (read : InputState) : State :=
  if (s.trip i).enabled then (s.settle.setTripPin i ((s.trip i).levelFor read)).tripRun i read else s

/-- TRIP_INPUT_ACTIVE (R129): K consecutive samples read ACTIVE. -/
def execTripInputActive (source : TripInput) (s : State) : Host.Outcome State Fault Refusal :=
  .next (s.whenRunning fun s => s.tripReads source .active)

/-- TRIP_INPUT_INACTIVE (R129): K consecutive samples read INACTIVE. -/
def execTripInputInactive (source : TripInput) (s : State) : Host.Outcome State Fault Refusal :=
  .next (s.whenRunning fun s => s.tripReads source .inactive)

end Sys2Proof.Machine
end

