-- ==== Sys2Proof/Machine/Dispatch.lean ====
section
/-! DEFINITION. exec: one arm per command, each one call of its meaning. -/

namespace Sys2Proof.Machine

def exec (i : Instr) (s : State) : Host.Outcome State Fault Refusal :=
  match i with
  | .powerOn => Sys2Proof.Machine.execPowerOn s
  | .resetNAssert => Sys2Proof.Machine.execResetNAssert s
  | .resetNRelease => Sys2Proof.Machine.execResetNRelease s
  | .tickEvent levels order => Sys2Proof.Machine.execTickEvent levels order s
  | .overrun => Sys2Proof.Machine.execOverrun s
  | .action => Sys2Proof.Machine.execAction s
  | .strobePulseEnd strobe => Sys2Proof.Machine.execStrobePulseEnd strobe s
  | .triggerSample line level => Sys2Proof.Machine.execTriggerSample line level s
  | .qualifiedEdge line => Sys2Proof.Machine.execQualifiedEdge line s
  | .tripInputActive source => Sys2Proof.Machine.execTripInputActive source s
  | .tripInputInactive source => Sys2Proof.Machine.execTripInputInactive source s
  | .csNFall => Sys2Proof.Machine.execCsNFall s
  | .csNRise => Sys2Proof.Machine.execCsNRise s
  | .executionEnd => Sys2Proof.Machine.execExecutionEnd s
  | .nop tag => Sys2Proof.Machine.execNop tag s
  | .readTime tag => Sys2Proof.Machine.execReadTime tag s
  | .setTime tag value => Sys2Proof.Machine.execSetTime tag value s
  | .setDivider tag value => Sys2Proof.Machine.execSetDivider tag value s
  | .define tag entry lane d w p n strobe notify => Sys2Proof.Machine.execDefine tag entry lane d w p n strobe notify s
  | .schedule tag entry kind block => Sys2Proof.Machine.execSchedule tag entry kind block s
  | .scheduleSet tag count kind block members => Sys2Proof.Machine.execScheduleSet tag count kind block members s
  | .amend tag entry mask d w p n => Sys2Proof.Machine.execAmend tag entry mask d w p n s
  | .drain tag entry => Sys2Proof.Machine.execDrain tag entry s
  | .cancel tag entry => Sys2Proof.Machine.execCancel tag entry s
  | .query tag entry => Sys2Proof.Machine.execQuery tag entry s
  | .ack tag entry => Sys2Proof.Machine.execAck tag entry s
  | .release tag entry => Sys2Proof.Machine.execRelease tag entry s
  | .summary tag => Sys2Proof.Machine.execSummary tag s
  | .triggerConfig tag line edge sd k => Sys2Proof.Machine.execTriggerConfig tag line edge sd k s
  | .laneConfig tag lane polarity safe => Sys2Proof.Machine.execLaneConfig tag lane polarity safe s
  | .laneSet tag lane value => Sys2Proof.Machine.execLaneSet tag lane value s
  | .laneQuery tag lane => Sys2Proof.Machine.execLaneQuery tag lane s
  | .strobeConfig tag strobe width => Sys2Proof.Machine.execStrobeConfig tag strobe width s
  | .tripConfig tag source en al k group => Sys2Proof.Machine.execTripConfig tag source en al k group s
  | .trip tag group => Sys2Proof.Machine.execTrip tag group s
  | .clearTrip tag source => Sys2Proof.Machine.execClearTrip tag source s
  | .softReset tag => Sys2Proof.Machine.execSoftReset tag s
  | .tripFilterSample source level => Sys2Proof.Machine.execTripFilterSample source level s
  | .byteReceived byte => Sys2Proof.Machine.execByteReceived byte s

end Sys2Proof.Machine
end

