-- ==== Sys2Proof/Safety.lean ====
section
/-! DEFINITION. What claims about the part are made of: a steady part, what a retirement and a trip leave, the item a
dispatch hands over, and the laws that every step keeps. Each is a decidable proposition over the state. -/

namespace Sys2Proof.Machine

/-! ### When a command finds no event in progress -/

/-- No tick event is in progress: no dispatch, no sample and no countdown is owed (R2). -/
abbrev State.TickWhole (s : State) : Prop :=
  s.dispatch = none ∧ (∀ n : Fin 8, (s.line n).sampleDue = false) ∧ ∀ k : Fin 4, (s.strobe k).countdownDue = false

/-- Whether an execution is in progress (R145). -/
def Buffer.isExecuting : Buffer → Bool
  | .executing _ => true
  | .empty | .ready _ => false

/-- A request waits in the execution for its take point (R146). -/
def Buffer.isWaiting : Buffer → Bool
  | .executing (.waiting _) => true
  | .executing (.answered _ _) | .empty | .ready _ => false

/-- The frame of a READY buffer; no byte otherwise. -/
def Buffer.frame : Buffer → List Byte
  | .ready frame => frame
  | .empty | .executing _ => []

/-- RESET_N is high, no tick event and no execution is in progress. -/
abbrev State.Steady (s : State) : Prop := s.inReset = false ∧ s.TickWhole ∧ s.link.buffer.isExecuting = false

/-- The execution of a request that waits for its take point ends on the next CLK edge, which finds no tick event in progress
(R146). -/
abbrev State.EndsExecutionOf (s : State) (c : Instr) : Prop :=
  s.inReset = false ∧ s.TickWhole ∧ s.link.buffer = .executing (.waiting c) ∧ 160 ≤ s.link.age + 1

/-- No entry is PENDING, RUNNING or DRAINING, and none has an item or a subscription (R9, R11). -/
abbrev State.Stopped (s : State) : Prop :=
  (∀ e : Fin 64, (s.entry e).scheduled = false) ∧ s.due = [] ∧ ∀ n : Fin 8, (s.line n).subs = []

/-- A command is a request: a frame carries it. -/
def isRequest (c : Instr) : Bool := c.codeAndPayload.isSome

/-- The state with the response to a request in the buffer, READY (R144, R146). -/
def State.answered (s : State) (c : Instr) (a : Answer) : State := s.setBuffer (.ready (responseFrame c.tag a))

/-! ### Frames: the units an event leaves as they were -/

/-- The timebase is as it was. -/
abbrev State.SameTimebase (s t : State) : Prop :=
  t.now = s.now ∧ t.divider = s.divider ∧ t.tickLength = s.tickLength ∧ t.tickPhase = s.tickPhase

/-- Every trigger line but for its subscription list is as it was. -/
abbrev State.SameFilters (s t : State) : Prop :=
  ∀ n : Fin 8, { t.line n with subs := [] } = { s.line n with subs := [] }

/-- The configuration, the forced level and the `tripped-by` set of every lane are as they were. -/
abbrev State.SameLaneSettings (s t : State) : Prop :=
  ∀ l : Fin 16, (t.lane l).polarity = (s.lane l).polarity ∧ (t.lane l).safeLevel = (s.lane l).safeLevel
    ∧ (t.lane l).forced = (s.lane l).forced ∧ (t.lane l).trippedBy = (s.lane l).trippedBy

/-- The three trip sources are as they were. -/
abbrev State.SameTrips (s t : State) : Prop := t.tripA = s.tripA ∧ t.tripB = s.tripB ∧ t.soft = s.soft

/-- Everything but the entries, the due list, the dispatch, the lines, the lanes and the strobe lines is as it was. -/
abbrev State.SameOutsideRuns (s t : State) : Prop :=
  s.SameTimebase t ∧ s.SameTrips t ∧ t.pins = s.pins ∧ t.link = s.link ∧ t.pending = s.pending ∧ t.clkEdges = s.clkEdges

/-- Every entry but those of a list is as it was. -/
abbrev State.SameEntriesBut (s t : State) (changed : List (Fin 64)) : Prop :=
  ∀ e : Fin 64, e ∉ changed → t.entry e = s.entry e

/-! ### What a retirement leaves (R27, R28, R116) -/

/-- `r'` is the record `r` retired with an outcome at a tick, when its event is whole. -/
abbrev Entry.RetiredAs (r r' : Entry) (oc : EntryOutcome) (at_ : Instant) : Prop :=
  r' = { r with
    state := .done
    outcome := some oc
    retiredAt := some at_
    staged := Staged.none
    heldTrigger := none
    predecessor := none
    successor := none
    missedTriggers :=
      if r.heldTrigger = none then r.missedTriggers else BitVec.ofNat 8 (min 255 (r.missedTriggers.toNat + 1))
    flags := { r.flags with stagedDiscarded := r.flags.stagedDiscarded || !decide (r.staged = Staged.none) } }

/-- The trigger line a start names. -/
def Start.line? : Start → Option (Fin 8)
  | .onTrigger n _ _ => some n
  | .atTime _ _ | .after _ => none

/-- A start whose policy is RESTART (R91). -/
def Start.restarts : Start → Bool
  | .onTrigger _ .every .restart => true
  | .onTrigger _ _ _ | .atTime _ _ | .after _ => false

/-- Entry `e` holds no lane, no due item and no subscription (R28). -/
abbrev State.Released (t : State) (e : Fin 64) : Prop :=
  (∀ l : Fin 16, (t.entry e).prog.lane = some l → (t.lane l).owner ≠ some e ∧ (t.lane l).heir ≠ some e)
    ∧ (∀ i ∈ t.due, i.entry ≠ e)
    ∧ (∀ n : Fin 8, (t.entry e).start.bind Start.line? = some n → e ∉ (t.line n).subs)

/-! ### What the breaking of chains leaves (R122, R123) -/

/-- `t` is what the retirement of the entries of `hit` with an outcome that breaks chains leaves of `s`. Each scheduled entry
that the event retired has its waiting successor, if that is not of `hit` itself, retired CHAIN_BROKEN at `now` with its claims
released, and so on along the chain to its tail. An entry that is not of `hit` and stands behind no entry that the event
retired is as it was, but for its link to a successor that was retired, and so are the items of the entries not retired. -/
abbrev State.ChainsBroken (s t : State) (hit : Fin 64 → Bool) : Prop :=
  (∀ e y : Fin 64, (s.entry e).scheduled = true → (t.entry e).state = .done → (s.entry e).successor = some y →
      (s.entry y).scheduled = true → hit y = false →
      (s.entry y).RetiredAs (t.entry y) .chainBroken s.now ∧ t.Released y)
    ∧ (∀ e : Fin 64, hit e = false →
      (∀ p : Fin 64, (s.entry p).successor = some e → (t.entry p).scheduled = true) →
      t.entry e = { s.entry e with successor := (t.entry e).successor } ∧
        ((t.entry e).successor = (s.entry e).successor ∨
          ((t.entry e).successor = none ∧ ∃ y : Fin 64, (s.entry e).successor = some y ∧ (t.entry y).state = .done)))
    ∧ (t.due.filter fun i => (t.entry i.entry).scheduled) = (s.due.filter fun i => (t.entry i.entry).scheduled)

/-- The claims on lane `l` are all of entries that an event does not retire. -/
abbrev State.ClaimsStand (s t : State) (l : Fin 16) : Prop :=
  ∀ e : Fin 64, (s.lane l).owner = some e ∨ (s.lane l).heir = some e → (t.entry e).scheduled = true

/-! ### What a trip leaves (R131, R132) -/

/-- Entry `e` is owner or heir of a lane of the group that no source holds yet. -/
abbrev State.HoldsUntripped (s : State) (g : LaneGroup) (e : Fin 64) : Prop :=
  ∃ l : Fin 16, g.getLsbD l.val = true ∧ (s.lane l).trippedBy = TrippedBy.empty
    ∧ ((s.lane l).owner = some e ∨ (s.lane l).heir = some e)

/-- `t` is what the trip of group `g` leaves of `s`, with `held` the `tripped-by` set of each lane after it. Every lane of the
group shows its safe level, a lane newly tripped holds no claim, and other lanes keep their forced levels. Every scheduled
entry that held a newly tripped lane is TRIPPED at `now`, and the chains behind those entries are broken; a lane outside the
group that entries not retired alone claim is as it was. -/
abbrev State.TripEffect (s t : State) (held : Fin 16 → TrippedBy) (g : LaneGroup) : Prop :=
  (∀ l : Fin 16, (t.lane l).trippedBy = held l)
    ∧ (∀ l : Fin 16, g.getLsbD l.val = true → (t.lane l).presentLevel = (s.lane l).safeLevel)
    ∧ (∀ l : Fin 16, g.getLsbD l.val = true → (s.lane l).trippedBy = TrippedBy.empty →
      (t.lane l).owner = none ∧ (t.lane l).heir = none ∧ (t.lane l).forced = none ∧ (t.lane l).call = .inactive)
    ∧ (∀ l : Fin 16, g.getLsbD l.val = false → (t.lane l).forced = (s.lane l).forced)
    ∧ (∀ l : Fin 16, (t.lane l).polarity = (s.lane l).polarity ∧ (t.lane l).safeLevel = (s.lane l).safeLevel)
    ∧ (∀ e : Fin 64, (s.entry e).scheduled = true → s.HoldsUntripped g e →
      (s.entry e).RetiredAs (t.entry e) .tripped s.now ∧ t.Released e)
    ∧ s.ChainsBroken t (fun e => decide (s.HoldsUntripped g e))
    ∧ (∀ l : Fin 16, g.getLsbD l.val = false → s.ClaimsStand t l → t.lane l = s.lane l)

/-- `t` is what the trip of group `g` by source `src` leaves of `s`: the source joins the `tripped-by` set of every lane of the
group. -/
abbrev State.Tripped (s t : State) (src : TripId) (g : LaneGroup) : Prop :=
  s.TripEffect t
      (fun l => if g.getLsbD l.val = true then (s.lane l).trippedBy.add src else (s.lane l).trippedBy) g
    ∧ s.SameTimebase t ∧ s.SameFilters t ∧ t.strobes = s.strobes

/-- The group that source A or B trips on the next CLK edge, where it completes its K-th ACTIVE sample there; else no lane
(R128, R129). -/
def State.edgeGroup (s : State) (i : TripInput) : LaneGroup :=
  let r := s.trip i
  if r.enabled = true ∧ r.state = .quiet ∧ r.inputState = .inactive ∧ r.depth ≤ r.runLength + 1 ∧
      s.tripPin i = r.activeLevel
  then r.group else 0

/-- `t` is what the trips of one CLK edge leave of `s` together: of A and B where they complete a K-th sample there, and of
SOFT for the group given (R133). Each source joins the sets of its own lanes, and the holders of all their lanes are TRIPPED, in
front of one another or behind. -/
abbrev State.TrippedOnEdge (s t : State) (soft : LaneGroup) : Prop :=
  s.TripEffect t
    (fun l =>
      { a := (s.lane l).trippedBy.a || (s.edgeGroup .a).getLsbD l.val
        b := (s.lane l).trippedBy.b || (s.edgeGroup .b).getLsbD l.val
        soft := (s.lane l).trippedBy.soft || soft.getLsbD l.val })
    (s.edgeGroup .a ||| s.edgeGroup .b ||| soft)

/-! ### Offsets of a cycle (R38 to R40) -/

/-- A programme that DEFINE and AMEND admit (R18): a one-shot with D + W at least 1, or a repeating one with P at least 1
and D + W at most P. -/
abbrev Programme.Lawful (p : Programme) : Prop :=
  if p.count = 1 then 1 ≤ p.delay.toNat + p.width.toNat
  else 1 ≤ p.period.toNat ∧ p.delay.toNat + p.width.toNat ≤ p.period.toNat

/-- The offset at which a cycle ends (R44). -/
def Programme.lastOffset (p : Programme) : Nat :=
  if p.count = 1 then p.delay.toNat + p.width.toNat else p.period.toNat

/-- The phase of the instant at an offset (R40). -/
def Programme.phaseOf (p : Programme) (o : Nat) : Phase :=
  if p.delay.toNat ≤ o then (if o < p.delay.toNat + p.width.toNat then .active else .rest) else .delay

/-- The offset of the instant that follows the one at `o` in the same cycle (R39). -/
def Programme.offsetAfter (p : Programme) (o : Nat) : Nat :=
  if o < p.delay.toNat then p.delay.toNat
  else if o < p.delay.toNat + p.width.toNat then p.delay.toNat + p.width.toNat
  else p.period.toNat

/-- The programme with staged values taken (R45). -/
def Entry.progWithStaged (r : Entry) : Programme :=
  { r.prog with
    delay := r.staged.delay.getD r.prog.delay
    width := r.staged.width.getD r.prog.width
    period := r.staged.period.getD r.prog.period }

/-- The level called for in a phase (R41). -/
def Phase.call : Phase → Call
  | .active => .active
  | .delay | .rest => .inactive

/-! ### The dispatch (R70 to R74) -/

/-- The dispatch in progress hands over item `i` next: fewer than four actions are handed, the overrun step is complete,
`i` is the first item it has not passed over, and `i` is due with lateness 0 to 255. -/
abbrev State.Hands (s : State) (d : DispatchWork) (i : DueItem) : Prop :=
  s.inReset = false ∧ s.dispatch = some d ∧ d.handed.length < 4
    ∧ (∀ j ∈ s.due.head?, lateness j.due s.now ≤ 255)
    ∧ (s.due.filter fun j => !d.passed.contains j.entry).head? = some i
    ∧ (s.now - i.due).toNat ≤ 255

/-- The strobe lines and flags after an action of entry `e` that serves its strobe point, or does not (R46, R109, R111). -/
abbrev State.StrobeServed (s t : State) (e : Fin 64) (served : Bool) : Prop :=
  (∀ k : Fin 4,
      if served = true ∧ ((s.entry e).prog.strobe.map StrobeUse.line) = some k ∧ (s.strobe k).remaining = 0
      then t.strobe k = { s.strobe k with remaining := (s.strobe k).width, countdownDue := false }
      else t.strobe k = s.strobe k)
    ∧ (t.entry e).flags.strobeMerged = ((s.entry e).flags.strobeMerged ||
        (served && (s.entry e).prog.strobe.any fun u => decide ((s.strobe u.line).remaining ≠ 0)))

/-- Whether the strobe point of a programme is among the instants taken: START when a START is, ACTIVE and INACTIVE when
the last instant of the action lies at offset `o` (R39, R46). -/
def Programme.pointServed (p : Programme) (o : Nat) (startTaken : Bool) : Bool :=
  match p.strobe.map StrobeUse.point with
  | some .start => startTaken
  | some .active => o = p.delay.toNat
  | some .inactive => o = p.delay.toNat + p.width.toNat
  | none => false

/-- The `worst skew` an action at nominal instant `t` leaves (R7, R16). -/
def Entry.skewAfter (r : Entry) (now t : Instant) : Byte :=
  BitVec.ofNat 8 (max r.worstSkew.toNat (min 255 (now - t).toNat))

/-! ### Commands taken one after another -/

/-- The commands of a list are carried out one after another; the first that does not answer a next state ends them. -/
def execAll : List Instr → State → Host.Outcome State Fault Refusal
  | [], s => .next s
  | c :: rest, s =>
    match exec c s with
    | .next t => execAll rest t
    | .fault f => .fault f
    | .refused r => .refused r

/-- SCHEDULE requests of a list of members, one after another with one start, from index `k` on: the state after all of
them, or the index and the status code of the first that is not answered OK (R124). -/
def scheduleEach (tag kind : Byte) (block : StartBlock) : Nat → List Byte → State → State × Option (Nat × Byte)
  | _, [], s => (s, none)
  | k, b :: rest, s =>
    match exec (.schedule tag b kind block) s with
    | .next t =>
      match t.link.buffer with
      | .ready (st :: _) => if st = 0 then scheduleEach tag kind block (k + 1) rest t else (t, some (k, st))
      | .ready [] | .empty | .executing _ => (t, none)
    | .fault _ | .refused _ => (s, none)

/-! ### Reset values (R3, R36, R80, R97, R108, R114, R138, R145) -/

/-- Every block holds the values of power-on and RESET_N; the input pins, the queue and the transaction state aside. -/
abbrev State.AtResetValues (t : State) : Prop :=
  (t.now = 0 ∧ t.divider = 1 ∧ t.tickLength = 1 ∧ t.tickPhase = 0)
    ∧ (∀ e : Fin 64, t.entry e = Entry.free) ∧ t.due = [] ∧ t.dispatch = none
    ∧ (∀ n : Fin 8, t.line n = ⟨.none, 1, 3, 0, none, 0, [], false⟩)
    ∧ (∀ l : Fin 16, t.lane l = ⟨.activeHigh, .low, none, .inactive, none, none, ⟨false, false, false⟩⟩)
    ∧ (∀ k : Fin 4, t.strobe k = ⟨1, 0, false⟩)
    ∧ (∀ i ∈ [TripInput.a, TripInput.b], t.trip i = ⟨false, .low, 3, 0, .inactive, 0, .quiet⟩)
    ∧ t.soft = ⟨0, .quiet⟩
    ∧ t.link.buffer = .empty ∧ t.link.outgoing = none ∧ t.link.received = [] ∧ t.link.count = 0

/-! ### The due list and the lanes after an event -/

/-- The due list is as it was but for the item of entry `e`, which is the one due at the instant given, or none. -/
abbrev State.ItemBecomes (s t : State) (e : Fin 64) (due : Option Instant) : Prop :=
  (t.due.filter fun i => decide (i.entry ≠ e)) = (s.due.filter fun i => decide (i.entry ≠ e))
    ∧ (t.due.filter fun i => decide (i.entry = e)) = due.toList.map fun x => ⟨x, e⟩

/-- The lanes are as they were but for the `call` of the lane that entry `e` owns and names (R102). -/
abbrev State.CallBecomes (s t : State) (e : Fin 64) (c : Call) : Prop :=
  ∀ l : Fin 16, t.lane l =
    if (s.entry e).prog.lane = some l ∧ (s.lane l).owner = some e then { s.lane l with call := c } else s.lane l

/-- An unclaimed, unforced, untripped lane, or no lane: an owner claim of entry `e` is made (R101). -/
abbrev State.LaneFree (s : State) (e : Fin 64) : Prop :=
  ∀ l : Fin 16, (s.entry e).prog.lane = some l →
    (s.lane l).trippedBy = TrippedBy.empty ∧ (s.lane l).owner = none ∧ (s.lane l).heir = none ∧ (s.lane l).forced = none

/-- The lanes are as they were but for the lane that entry `e` names, which it owns with `call` INACTIVE (R101). -/
abbrev State.OwnedBy (s t : State) (e : Fin 64) : Prop :=
  ∀ l : Fin 16, t.lane l =
    if (s.entry e).prog.lane = some l then { s.lane l with owner := some e, call := .inactive } else s.lane l

/-- A lane that entry `e` owned has no claim, and every lane keeps its settings (R103). -/
abbrev State.LaneGoesIdle (s t : State) (e : Fin 64) : Prop :=
  (∀ l : Fin 16, (s.entry e).prog.lane = some l → (s.lane l).owner = some e →
      (t.lane l).owner = none ∧ (t.lane l).heir = none ∧ (t.lane l).call = .inactive)
    ∧ s.SameLaneSettings t

/-- Entry `e` alone retires of its own cause, with an outcome that breaks the chain behind it to its tail (R122); a lane that
entries not retired alone claim is as it was. -/
abbrev State.ChainBroken (s t : State) (e : Fin 64) : Prop :=
  s.ChainsBroken t (fun x => decide (x = e)) ∧ ∀ l : Fin 16, s.ClaimsStand t l → t.lane l = s.lane l

/-- The lanes after a hand-off from entry `p` to its successor `y`, which calls for level `c` (R103, R120): the lane that `p`
owns and `y` is heir of becomes the lane of `y`; any other lane of `p` goes idle; a lane that `y` owns already takes the level;
other lanes are as they were. -/
abbrev State.LanesHandedOver (s t : State) (p y : Fin 64) (c : Call) : Prop :=
  ∀ l : Fin 16,
    ((s.entry p).prog.lane = some l → (s.lane l).owner = some p → (s.lane l).heir = some y →
      (s.entry y).prog.lane = some l → t.lane l = { s.lane l with owner := some y, heir := none, call := c })
    ∧ ((s.entry p).prog.lane = some l → (s.lane l).owner = some p → (s.lane l).heir ≠ some y →
      t.lane l = { s.lane l with owner := none, heir := none, call := .inactive })
    ∧ ((s.entry p).prog.lane ≠ some l → (s.entry y).prog.lane = some l → (s.lane l).owner = some y →
      t.lane l = { s.lane l with call := c })
    ∧ ((s.entry p).prog.lane ≠ some l → (s.entry y).prog.lane ≠ some l → t.lane l = s.lane l)

/-- `t` is what the hand-off from entry `p` to its waiting successor `y` leaves of the successor: it runs from `start` with its
START taken, its item joins the due list in place of that of `p`, the link is gone at both ends (and with it a link back from
the successor, which no run makes), and the lanes are handed over (R120). -/
abbrev State.HandedOver (s t : State) (p y : Fin 64) (start : Instant) : Prop :=
  t.entry y = { s.entry y with
      state := .running
      predecessor := if (s.entry y).predecessor = some p then none else (s.entry y).predecessor
      successor :=
        if (s.entry p).predecessor = some y ∧ (s.entry y).successor = some p then none else (s.entry y).successor
      cycleStart := start
      cyclesDone := 0
      phase := (s.entry y).prog.phaseOf 0
      nextInstant := start + BitVec.ofNat 32 ((s.entry y).prog.offsetAfter 0)
      flags := { (s.entry y).flags with strobeMerged := (t.entry y).flags.strobeMerged } }
    ∧ (t.due.filter fun i => decide (i.entry = y)) = [⟨start + BitVec.ofNat 32 ((s.entry y).prog.offsetAfter 0), y⟩]
    ∧ (t.due.filter fun i => decide (i.entry = p)) = []
    ∧ (t.due.filter fun i => decide (i.entry ≠ p ∧ i.entry ≠ y)) = (s.due.filter fun i => decide (i.entry ≠ p ∧ i.entry ≠ y))
    ∧ s.LanesHandedOver t p y ((s.entry y).prog.phaseOf 0).call

/-! ### The laws that every step keeps -/

/-- The counts of the timebase, the trigger lines, the strobe lines and the trip filters lie in their ranges (section 1.1,
Tables 5-1, 6-5 and 8-1). -/
abbrev State.InRange (s : State) : Prop :=
  (1 ≤ s.divider ∧ s.divider ≤ 256 ∧ 1 ≤ s.tickLength ∧ s.tickLength ≤ 256 ∧ s.tickPhase < s.tickLength)
    ∧ (∀ n : Fin 8, 1 ≤ (s.line n).sampleDivider ∧ (s.line n).sampleDivider ≤ 16
        ∧ 1 ≤ (s.line n).depth ∧ (s.line n).depth ≤ 15
        ∧ (s.line n).sampleCount < (s.line n).sampleDivider ∧ (s.line n).runLength < (s.line n).depth)
    ∧ (∀ k : Fin 4, 1 ≤ (s.strobe k).width ∧ (s.strobe k).width ≤ 255 ∧ (s.strobe k).remaining ≤ 255)
    ∧ (1 ≤ s.tripA.depth ∧ s.tripA.depth ≤ 15 ∧ s.tripA.runLength < s.tripA.depth)
    ∧ (1 ≤ s.tripB.depth ∧ s.tripB.depth ≤ 15 ∧ s.tripB.runLength < s.tripB.depth)

/-- The law of one lane (R99, R100, R131): a tripped lane has no claim; an owned lane has no forced level; an heir stands
only behind an owner, and is another entry; an unowned lane has `call` INACTIVE. -/
abbrev Lane.Lawful (l : Lane) : Prop :=
  (l.trippedBy ≠ TrippedBy.empty → l.owner = none ∧ l.heir = none ∧ l.forced = none)
    ∧ (l.owner ≠ none → l.forced = none)
    ∧ (l.heir ≠ none → l.owner ≠ none ∧ l.heir ≠ l.owner)
    ∧ (l.owner = none → l.call = .inactive)

/-- Every lane keeps its law. -/
abbrev State.LanesLawful (s : State) : Prop := ∀ l : Fin 16, (s.lane l).Lawful

/-- The law of one source with an input (R127, R128, R129): a disabled source is QUIET; HELD goes with `input state`
ACTIVE, QUIET and LATCHED with INACTIVE; a disabled filter stays at its restart values. -/
abbrev TripSource.Lawful (r : TripSource) : Prop :=
  (r.state = .held ↔ r.inputState = .active) ∧ (r.enabled = false → r.state = .quiet ∧ r.runLength = 0)

/-- The laws of the trip sources: the sources' own, SOFT is never HELD and holds no lane while QUIET (R129, R135, R136), and a
source holds exactly the lanes of its group while it is not QUIET (R127, R131, R136). -/
abbrev State.TripsLawful (s : State) : Prop :=
  s.tripA.Lawful ∧ s.tripB.Lawful ∧ s.soft.state ≠ .held ∧ (s.soft.state = .quiet → s.soft.group = 0)
    ∧ ∀ l : Fin 16,
      ((s.lane l).trippedBy.a = true ↔ s.tripA.state ≠ .quiet ∧ s.tripA.group.getLsbD l.val = true)
      ∧ ((s.lane l).trippedBy.b = true ↔ s.tripB.state ≠ .quiet ∧ s.tripB.group.getLsbD l.val = true)
      ∧ ((s.lane l).trippedBy.soft = true ↔ s.soft.state ≠ .quiet ∧ s.soft.group.getLsbD l.val = true)

/-- The optional parts of one record (R15, R30, Table 2-1): a FREE entry holds nothing, an IDLE one its programme alone;
`staged` needs a run, `held trigger` a RUNNING HOLD_ONE entry; `outcome` and `retired at` are present exactly in DONE; a ONCE start
records IGNORE (R24). -/
abbrev Entry.PartsLawful (r : Entry) : Prop :=
  (r.state = .free → r = Entry.free)
    ∧ (r.state = .idle → r = { Entry.free with state := .idle, prog := r.prog })
    ∧ (r.staged ≠ Staged.none → r.state = .running ∨ r.state = .draining)
    ∧ (r.heldTrigger ≠ none → r.state = .running ∧ ∃ n : Fin 8, r.start = some (.onTrigger n .every .holdOne))
    ∧ (r.outcome ≠ none ↔ r.state = .done) ∧ (r.retiredAt ≠ none ↔ r.state = .done)
    ∧ (r.start = none ↔ r.state = .free ∨ r.state = .idle)
    ∧ (∀ n : Fin 8, r.start ≠ some (.onTrigger n .once .restart) ∧ r.start ≠ some (.onTrigger n .once .holdOne))

/-- The programme held and the one in force from the next START are valid (R18, R56), and a run with a count has not
reached it (R44). -/
abbrev Entry.RunLawful (r : Entry) : Prop :=
  (r.state ≠ .free → r.prog.Lawful ∧ r.progWithStaged.Lawful)
    ∧ (r.state = .running ∨ r.state = .draining → r.prog.count ≠ 0 → r.cyclesDone.toNat < r.prog.count.toNat)

/-- Every record keeps its laws, and no entry is its own successor (R115). -/
abbrev State.EntriesLawful (s : State) : Prop :=
  ∀ e : Fin 64, (s.entry e).PartsLawful ∧ (s.entry e).RunLawful ∧ (s.entry e).successor ≠ some e

/-- A start of kind AT_TIME. -/
def Start.isAtTime : Start → Bool
  | .atTime _ _ => true
  | .onTrigger _ _ _ | .after _ => false

/-- An entry waits for a time (R65). -/
abbrev Entry.Waits (r : Entry) : Prop :=
  r.state = .running ∨ r.state = .draining ∨ (r.state = .pending ∧ r.start.any Start.isAtTime = true)

/-- The law of the due list (R65, R66, R67): one item for each entry that waits for a time, due at its `next instant`, in the
order of the list, none more than 255 ticks late, or 256 between a tick and its dispatch. -/
abbrev State.DueLawful (s : State) : Prop :=
  (s.due.map DueItem.entry).Nodup
    ∧ (∀ i ∈ s.due, (s.entry i.entry).nextInstant = i.due ∧ (s.entry i.entry).Waits)
    ∧ (∀ e : Fin 64, (s.entry e).Waits → ∃ i ∈ s.due, i.entry = e)
    ∧ s.due.Pairwise (fun i j => i.before s.now j = true)
    ∧ (∀ i ∈ s.due, lateness i.due s.now ≤ if s.dispatch = none then 255 else 256)

/-- The law of the link (R139, R145, R147): an ORDINARY transaction never meets an execution; only an open transaction has
received bytes (log entry 24), and it has an outgoing frame; the first 64 of the bytes counted are kept. -/
abbrev Link.Lawful (l : Link) : Prop :=
  (l.transaction = .ordinary → l.buffer.isExecuting = false)
    ∧ (l.transaction = .closed ∨ l.transaction = .waitHigh → l.received = [] ∧ l.count = 0)
    ∧ (l.transaction = .ordinary ∨ l.transaction = .discarding → l.outgoing ≠ none)
    ∧ l.received.length = min 64 l.count

end Sys2Proof.Machine
end

