-- ==== Sys2Proof/Certificates/Slice0/Obligations.lean ====
section
/-! DEFINITION. The statements about the SGT-6416, from its numbered rules. A statement names in its docstring the rules it
formalises; where it also rests on a choice of the model, it names the log entry. -/

open Sys2Proof Sys2Proof.Machine

/-! ### The queue and the resets -/

/-- A step takes the command at the front of the queue: it is exec of that command on the state with the queue's rest (the queue is
the model's form of what comes from outside: log entries 1 and 16). -/
def Obligations.StepTakesTheFrontCommand : Prop :=
  ∀ (c : Instr) (rest : List Instr) (s : State), step (s.withPending (c :: rest)) = exec c (s.withPending rest)

/-- On an empty queue one CLK edge passes (log entry 4, the model's choice): in reset nothing changes; otherwise the
timebase counts one CLK period, the tick ends when its length is counted (R1), and each trip input takes a sample (R128). Where the
execution that ends on the edge is of one of four requests, its effect is bound in every value of the free orders: SET_TIME leaves
`now` at V with a whole tick to come (R10), a SET_DIVIDER governs the tick that begins on the edge (R12), a TRIP_CONFIG that
restarts a filter leaves no sample of the edge in it, unless the trip of the K-th sample was taken first (R137), and the trip of a
TRIP is taken with those of A and B. On an edge that ends no tick, the trips of A, B and SOFT end every entry and lane the same in
every order: each holder of a lane newly tripped is TRIPPED, also where it stands behind another (R133; that no chain breaks
before all have retired is the model's reading, log entry 25). -/
def Obligations.IdleEdgeCountsTheTick : Prop :=
  ∀ (s : State) (tag al k : Byte) (v : Instant) (m : BitVec 16) (g : LaneGroup) (i : TripInput), s.pending = [] →
    (s.inReset = true → step s = .next s) ∧
    (s.Steady → ∃ t, step s = .next t ∧
      t.clkEdges = s.clkEdges + 1 ∧ t.divider = s.divider ∧ t.link = s.link ∧ t.soft = s.soft ∧
      (∃ u, exec (.tripFilterSample i (s.tripPin i)) s = .next u ∧ t.trip i = u.trip i) ∧
      (s.tickPhase + 1 < s.tickLength → s.TrippedOnEdge t 0) ∧
      if s.tickPhase + 1 < s.tickLength then
        t.now = s.now ∧ t.tickPhase = s.tickPhase + 1 ∧ t.tickLength = s.tickLength
      else t.now = s.now + 1 ∧ t.tickPhase = 0 ∧ t.tickLength = s.divider) ∧
    (s.EndsExecutionOf (.setTime tag v) → s.Stopped → ∃ t, step s = .next t ∧
      t.now = v ∧ t.tickPhase = 0 ∧ t.tickLength = s.divider ∧ t.divider = s.divider ∧
      t.link.buffer = .ready (frameOf 0x00 tag [])) ∧
    (s.EndsExecutionOf (.setDivider tag m) → s.Stopped → 1 ≤ m.toNat → m.toNat ≤ 256 → ∃ t, step s = .next t ∧
      t.divider = m.toNat ∧ t.link.buffer = .ready (frameOf 0x00 tag []) ∧
      if s.tickPhase + 1 < s.tickLength then
        t.now = s.now ∧ t.tickPhase = s.tickPhase + 1 ∧ t.tickLength = s.tickLength
      else t.now = s.now + 1 ∧ t.tickPhase = 0 ∧ t.tickLength = m.toNat) ∧
    (let before : LaneGroup := if s.soft.state = .quiet then 0 else s.soft.group
     s.EndsExecutionOf (.trip tag g) → g ≠ 0 → s.soft.state ≠ .held → ∃ t, step s = .next t ∧
      t.soft = { group := before ||| g, state := .latched } ∧ t.link.buffer = .ready (frameOf 0x00 tag []) ∧
      (∃ u, exec (.tripFilterSample i (s.tripPin i)) s = .next u ∧ t.trip i = u.trip i) ∧
      (s.tickPhase + 1 < s.tickLength → s.TrippedOnEdge t (g &&& ~~~before))) ∧
    (let r := s.trip i
     let level : Level := if al = 0 then .low else .high
     s.EndsExecutionOf (.tripConfig tag (if i = .a then 0 else 1) 1 al k g) → al.toNat ≤ 1 → 1 ≤ k.toNat → k.toNat ≤ 15 →
      r.state = .quiet → ¬ (r.enabled = true ∧ r.activeLevel = level ∧ r.depth = k.toNat) → ∃ t, step s = .next t ∧
        (t.trip i = ⟨true, level, k.toNat, g, .inactive, 0, .quiet⟩ ∨
          (r.enabled = true ∧ r.depth ≤ r.runLength + 1 ∧ s.tripPin i = r.activeLevel ∧
            t.trip i = { r with inputState := .active, runLength := 0, state := .held })))

/-- POWER_ON and RESET_N_ASSERT give every block its reset values; RESET_N_RELEASE finds them kept, and the transaction
state is WAIT_HIGH if CS_N is low, else CLOSED (R3, R36, R80, R97, R108, R114, R138, R153). That the input pins and the queue
are kept, and POWER_ON with RESET_N low, are the model's choice (log entries 8, 14 and 16). -/
def Obligations.ResetsGiveTheResetValues : Prop :=
  ∀ (s : State),
    (∃ t, exec .powerOn s = .next t ∧ t.AtResetValues ∧ t.pins = s.pins ∧ t.pending = s.pending ∧
      (s.inReset = false → t.link.transaction = if s.pins.csN = .low then .waitHigh else .closed)) ∧
    (∃ t, exec .resetNAssert s = .next t ∧ t.AtResetValues ∧ t.pins = { s.pins with resetN := .low } ∧
      t.pending = s.pending ∧ t.link.transaction = .closed) ∧
    (s.inReset = true → ∃ t, exec .resetNRelease s = .next t ∧ t.AtResetValues ∧
      t.pins = { s.pins with resetN := .high } ∧ t.pending = s.pending ∧
      t.link.transaction = if s.pins.csN = .low then .waitHigh else .closed)

/-- While RESET_N is held low no command but POWER_ON and the edges of RESET_N changes the part (CS_N is a pin, whose level
alone is kept: log entry 14), every lane and strobe pin is LOW, ATTN_N is released and SDO is undriven (R3, R36, R108, R114,
R138, R149, R153). -/
def Obligations.NothingHappensInReset : Prop :=
  ∀ (s : State) (c : Instr), s.inReset = true →
    (c ≠ .powerOn → c ≠ .resetNAssert → c ≠ .resetNRelease → c ≠ .csNFall → c ≠ .csNRise → exec c s = .next s) ∧
    exec .csNFall s = .next { s with pins := { s.pins with csN := .low } } ∧
    exec .csNRise s = .next { s with pins := { s.pins with csN := .high } } ∧
    (∀ l : Fin 16, s.lanePin l = .low) ∧ (∀ k : Fin 4, s.strobePin k = .low) ∧
    s.attnLow = false ∧ s.sdoDriven = false

/-- An event whose cause does not hold changes nothing (log entry 5, the model's choice): an overrun step on a head not
more than 255 ticks late, an action step while the head is, or with four actions handed, no item left or the first one not yet
due (R70 to R73); a sample or countdown that no tick event owes, a countdown that does not take `remaining` from 1 to 0, a
QUALIFIED_EDGE whose sample is not the K-th or whose change `edge` does not select (R82, R83, R110); a trip input event of a
disabled source (R127); an end of no execution, and a byte outside a transaction (R139, R146). A fall of CS_N in an open
transaction, and a rise of it in none, change the level of the pin alone. -/
def Obligations.EventsWithoutCauseChangeNothing : Prop :=
  ∀ (s : State) (n : Fin 8) (v : Level) (k : Fin 4) (b : Byte) (i : TripInput), s.inReset = false →
    let l := s.line n
    (s.dispatch = none → exec .overrun s = .next s ∧ exec .action s = .next s) ∧
    ((∀ i ∈ s.due.head?, lateness i.due s.now ≤ 255) → exec .overrun s = .next s) ∧
    ((∃ i ∈ s.due.head?, 255 < lateness i.due s.now) → exec .action s = .next s) ∧
    (∀ d ∈ s.dispatch, 4 ≤ d.handed.length → exec .action s = .next s) ∧
    (∀ d ∈ s.dispatch,
      (∀ i ∈ (s.due.filter fun j => !d.passed.contains j.entry).head?, 0 < signedDiff i.due s.now) →
        exec .action s = .next s) ∧
    (l.sampleDue = false → exec (.triggerSample n v) s = .next s ∧ exec (.qualifiedEdge n) s = .next s) ∧
    (l.accepted = none ∨ l.runLength + 1 < l.depth ∨ l.edge = .none ∨ (l.edge = .rising ∧ l.accepted = some .high) ∨
        (l.edge = .falling ∧ l.accepted = some .low) → exec (.qualifiedEdge n) s = .next s) ∧
    ((s.strobe k).countdownDue = false ∨ (s.strobe k).remaining ≠ 1 → exec (.strobePulseEnd k) s = .next s) ∧
    ((s.trip i).enabled = false → exec (.tripInputActive i) s = .next s ∧ exec (.tripInputInactive i) s = .next s) ∧
    (s.link.buffer.isExecuting = false → exec .executionEnd s = .next s) ∧
    (s.link.transaction = .closed ∨ s.link.transaction = .waitHigh → exec (.byteReceived b) s = .next s) ∧
    (s.link.transaction ≠ .closed → exec .csNFall s = .next { s with pins := { s.pins with csN := .low } }) ∧
    (s.link.transaction = .closed → exec .csNRise s = .next { s with pins := { s.pins with csN := .high } }) ∧
    exec .resetNRelease s = .next s

/-! ### The tick event -/

/-- A tick event adds one to `now` modulo 2^32 and begins the next tick with the recorded `divider`; the trip unit, the link
and the settings of the lanes are untouched (R1, R2). That the command ends the tick in progress whatever its phase has counted
is the model's choice (log entry 7: R1 ends a tick when its length is counted), and so is that the TRG inputs take the levels
the command names and the other pins keep theirs (log entry 8). -/
def Obligations.TickEventAdvancesTheTimebase : Prop :=
  ∀ (s : State) (levels : BitVec 8) (order : List TickUnit), s.inReset = false →
    ∃ t, exec (.tickEvent levels order) s = .next t ∧
      t.now = s.now + 1 ∧ t.tickPhase = 0 ∧ t.tickLength = s.divider ∧ t.divider = s.divider ∧
      t.pins = { s.pins with trg := levels } ∧ t.link = s.link ∧ s.SameTrips t ∧ s.SameLaneSettings t ∧
      t.pending = s.pending

/-- What a tick event brings before any of its parts is taken: a dispatch with nothing handed, a count on every trigger line
with a sample owed where the count reaches the divider (R81), a countdown owed on every strobe line whose pulse is in
progress (R110). That an empty order
leaves all of them owed, to be taken by later commands, is the model's choice (log entry 3: the spec ranks no part). -/
def Obligations.TickEventBeginsItsParts : Prop :=
  ∀ (s : State) (levels : BitVec 8), s.Steady →
    ∃ t, exec (.tickEvent levels []) s = .next t ∧
      t.dispatch = some { handed := [], passed := [] } ∧
      (∀ n : Fin 8, t.line n =
        if (s.line n).sampleCount + 1 < (s.line n).sampleDivider then
          { s.line n with sampleCount := (s.line n).sampleCount + 1 }
        else { s.line n with sampleCount := 0, sampleDue := true }) ∧
      (∀ k : Fin 4, t.strobe k = { s.strobe k with countdownDue := decide (0 < (s.strobe k).remaining) }) ∧
      t.entries = s.entries ∧ t.due = s.due ∧ t.lanes = s.lanes

/-- TICK_EVENT takes the parts its order operand lists, one after another. That it does so, and that a part not listed stays owed, is
the model's choice (DESIGN CHOICE, log entry 3): no rule ranks the parts of one tick event. What each part is, the rules say. The
dispatch is OVERRUNs, as many as the due list has items or more, then four ACTIONs, and it is
over (R70 to R73); a sample is TRIGGER_SAMPLE of the line at its level (R81, R82); a countdown lowers `remaining` by one where the
tick event owes it (R110). A tick event whose order lists all its parts leaves none owed, in whatever order they are taken. On an
empty due list, with no trigger line that qualifies an edge, it counts down by one each strobe line whose pulse was in progress, and
changes no entry and no lane (R70, R83, R110). -/
def Obligations.WholeTickLeavesNothingOwed : Prop :=
  ∀ (s : State) (levels : BitVec 8) (order : List TickUnit) (m : Nat) (n : Fin 8) (k : Fin 4), s.inReset = false →
    (∃ u, exec (.tickEvent levels order) s = .next u ∧
      (u.due.length ≤ m → ∃ t, execAll (List.replicate m .overrun ++ List.replicate 4 .action) u = .next t ∧
        exec (.tickEvent levels (order ++ [.dispatch])) s = .next { t with dispatch := none }) ∧
      exec (.tickEvent levels (order ++ [.sample n])) s =
        exec (.triggerSample n (if levels.getLsbD n.val then .high else .low)) u ∧
      exec (.tickEvent levels (order ++ [.countdown k])) s = .next (if (u.strobe k).countdownDue then
        u.setStrobe k { u.strobe k with remaining := (u.strobe k).remaining - 1, countdownDue := false } else u)) ∧
    ((∀ u ∈ tickUnits, u ∈ order) →
      ∃ t, exec (.tickEvent levels order) s = .next t ∧ t.TickWhole ∧
        (s.TickWhole → s.due = [] → (∀ n : Fin 8, (s.line n).edge = .none) →
          (∀ k : Fin 4, t.strobe k = { s.strobe k with remaining := (s.strobe k).remaining - 1 }) ∧
          t.entries = s.entries ∧ t.lanes = s.lanes ∧ t.due = []))

/-! ### The dispatch -/

/-- OVERRUN retires the entry of an overdue head OVERRUN at `now`, with its claims released and the chain behind it broken to its
tail, each entry CHAIN_BROKEN at `now` with its claims released; no other entry changes but for its link to one retired (R71,
R27, R28, R122). -/
def Obligations.OverrunRetiresTheHead : Prop :=
  ∀ (s : State) (i : DueItem), s.inReset = false → s.dispatch ≠ none → s.due.head? = some i →
    255 < lateness i.due s.now → (s.entry i.entry).scheduled = true →
    ∃ t, exec .overrun s = .next t ∧
      (s.entry i.entry).RetiredAs (t.entry i.entry) .overrun s.now ∧ t.Released i.entry ∧
      s.LaneGoesIdle t i.entry ∧ s.ChainBroken t i.entry ∧
      t.dispatch = s.dispatch ∧ t.strobes = s.strobes ∧ s.SameFilters t ∧ s.SameOutsideRuns t

/-- ACTION that takes the START of a run: of a PENDING entry, whose run it begins at the item's due instant, or of a run begun
by an edge (log entry 9). Staged values are taken, the instants at offset 0 with it (R39, R40, R43, R45, R46, R47, R48, R75;
the dispatch's own record of the action is log entry 18). -/
def Obligations.ActionTakesTheStart : Prop :=
  ∀ (s : State) (d : DispatchWork) (i : DueItem), s.Hands d i →
    let r := s.entry i.entry
    let p := r.progWithStaged
    r.state = .pending ∨ ((r.state = .running ∨ r.state = .draining) ∧ i.due = r.cycleStart) →
    p.Lawful →
    ∃ t, exec .action s = .next t ∧
      t.entry i.entry = { r with
        state := if r.state = .pending then .running else r.state
        prog := p
        staged := Staged.none
        cycleStart := i.due
        cyclesDone := if r.state = .pending then 0 else r.cyclesDone
        phase := p.phaseOf 0
        nextInstant := i.due + BitVec.ofNat 32 (p.offsetAfter 0)
        worstSkew := r.skewAfter s.now i.due
        flags := { r.flags with strobeMerged := (t.entry i.entry).flags.strobeMerged } } ∧
      s.StrobeServed t i.entry (p.pointServed 0 true) ∧
      s.ItemBecomes t i.entry (some (i.due + BitVec.ofNat 32 (p.offsetAfter 0))) ∧
      s.CallBecomes t i.entry (p.phaseOf 0).call ∧
      t.dispatch = some (d.hand i.entry r.successor) ∧
      s.SameEntriesBut t [i.entry] ∧ t.lines = s.lines ∧ s.SameOutsideRuns t

/-- ACTION at an ACTIVE or INACTIVE instant inside a cycle: phase, next instant, level, strobe and item (R39, R40, R41, R43, R46,
R75; log entry 18). -/
def Obligations.ActionInsideACycle : Prop :=
  ∀ (s : State) (d : DispatchWork) (i : DueItem), s.Hands d i →
    let r := s.entry i.entry
    let o := (i.due - r.cycleStart).toNat
    r.state = .running ∨ r.state = .draining → r.prog.Lawful → o ≠ 0 → o < r.prog.lastOffset →
    o = r.prog.delay.toNat ∨ o = r.prog.delay.toNat + r.prog.width.toNat →
    ∃ t, exec .action s = .next t ∧
      t.entry i.entry = { r with
        phase := r.prog.phaseOf o
        nextInstant := r.cycleStart + BitVec.ofNat 32 (r.prog.offsetAfter o)
        worstSkew := r.skewAfter s.now i.due
        flags := { r.flags with strobeMerged := (t.entry i.entry).flags.strobeMerged } } ∧
      s.StrobeServed t i.entry (r.prog.pointServed o false) ∧
      s.ItemBecomes t i.entry (some (r.cycleStart + BitVec.ofNat 32 (r.prog.offsetAfter o))) ∧
      s.CallBecomes t i.entry (r.prog.phaseOf o).call ∧
      t.dispatch = some (d.hand i.entry r.successor) ∧
      s.SameEntriesBut t [i.entry] ∧ t.lines = s.lines ∧ s.SameOutsideRuns t

/-- ACTION at an END that does not end the run: the cycle is counted, a new cycle begins at the nominal instant with the staged
values, and the instants of both cycles are taken with one request at most (R39, R43, R44, R45, R46; log entries 18 and 19). -/
def Obligations.ActionBeginsTheNextCycle : Prop :=
  ∀ (s : State) (d : DispatchWork) (i : DueItem), s.Hands d i →
    let r := s.entry i.entry
    let p := r.progWithStaged
    r.state = .running → r.prog.Lawful → p.Lawful → r.prog.count ≠ 1 →
    (i.due - r.cycleStart).toNat = r.prog.period.toNat →
    r.prog.count = 0 ∨ r.cyclesDone.toNat + 1 < r.prog.count.toNat →
    ∃ t, exec .action s = .next t ∧
      t.entry i.entry = { r with
        prog := p
        staged := Staged.none
        cycleStart := i.due
        cyclesDone := BitVec.ofNat 16 (min 65535 (r.cyclesDone.toNat + 1))
        phase := p.phaseOf 0
        nextInstant := i.due + BitVec.ofNat 32 (p.offsetAfter 0)
        worstSkew := r.skewAfter s.now i.due
        flags := { r.flags with strobeMerged := (t.entry i.entry).flags.strobeMerged } } ∧
      s.StrobeServed t i.entry (r.prog.pointServed r.prog.period.toNat false || p.pointServed 0 true) ∧
      s.ItemBecomes t i.entry (some (i.due + BitVec.ofNat 32 (p.offsetAfter 0))) ∧
      s.CallBecomes t i.entry (p.phaseOf 0).call ∧
      t.dispatch = some (d.hand i.entry r.successor) ∧
      s.SameEntriesBut t [i.entry] ∧ t.lines = s.lines ∧ s.SameOutsideRuns t

/-- The final action of an entry without a successor that does not return to PENDING: it retires COMPLETED, or DRAINED where
it was DRAINING, at `now`, with its cycle and its run counted and its claims released (R43, R44, R50, R53, R27, R28; log
entry 18). -/
def Obligations.FinalActionRetires : Prop :=
  ∀ (s : State) (d : DispatchWork) (i : DueItem), s.Hands d i →
    let r := s.entry i.entry
    r.state = .draining ∨
      (r.state = .running ∧ r.isEvery = false ∧ r.prog.count ≠ 0 ∧ r.prog.count.toNat ≤ r.cyclesDone.toNat + 1) →
    r.prog.Lawful → (i.due - r.cycleStart).toNat = r.prog.lastOffset → r.successor = none →
    ∃ t, exec .action s = .next t ∧
      Entry.RetiredAs { r with
          cyclesDone := BitVec.ofNat 16 (min 65535 (r.cyclesDone.toNat + 1))
          runsCompleted := BitVec.ofNat 16 (min 65535 (r.runsCompleted.toNat + 1))
          phase := .rest
          nextInstant := i.due
          worstSkew := r.skewAfter s.now i.due
          flags := { r.flags with strobeMerged := (t.entry i.entry).flags.strobeMerged } }
        (t.entry i.entry) (if r.state = .draining then .drained else .completed) s.now ∧
      s.StrobeServed t i.entry (r.prog.pointServed r.prog.lastOffset false) ∧
      t.Released i.entry ∧ s.LaneGoesIdle t i.entry ∧ s.ItemBecomes t i.entry none ∧
      t.dispatch = some (d.hand i.entry none) ∧
      s.SameEntriesBut t (i.entry :: r.predecessor.toList) ∧ s.SameFilters t ∧ s.SameOutsideRuns t

/-- The final action of a RUNNING EVERY entry without a held trigger: it returns to PENDING with the staged values in its
programme, keeps its lane with `call` INACTIVE and its subscription, and leaves the due list (R51; log entry 18). -/
def Obligations.FinalActionReturnsToPending : Prop :=
  ∀ (s : State) (d : DispatchWork) (i : DueItem), s.Hands d i →
    let r := s.entry i.entry
    r.state = .running → r.isEvery = true → r.heldTrigger = none → r.prog.Lawful →
    r.prog.count ≠ 0 → r.prog.count.toNat ≤ r.cyclesDone.toNat + 1 →
    (i.due - r.cycleStart).toNat = r.prog.lastOffset →
    ∃ t, exec .action s = .next t ∧
      t.entry i.entry = { r with
        state := .pending
        prog := r.progWithStaged
        staged := Staged.none
        cyclesDone := BitVec.ofNat 16 (min 65535 (r.cyclesDone.toNat + 1))
        runsCompleted := BitVec.ofNat 16 (min 65535 (r.runsCompleted.toNat + 1))
        phase := .rest
        nextInstant := i.due
        worstSkew := r.skewAfter s.now i.due
        flags := { r.flags with strobeMerged := (t.entry i.entry).flags.strobeMerged } } ∧
      s.StrobeServed t i.entry (r.prog.pointServed r.prog.lastOffset false) ∧
      s.ItemBecomes t i.entry none ∧ s.CallBecomes t i.entry .inactive ∧
      t.dispatch = some (d.hand i.entry r.successor) ∧
      s.SameEntriesBut t [i.entry] ∧ t.lines = s.lines ∧ s.SameOutsideRuns t

/-- The final action of a RUNNING EVERY entry with a held trigger begins a new run at the held instant and takes its START; an
item more than 255 ticks late at its insertion retires the entry OVERRUN (R52, R49, R67). One strobe request at most is
made for both runs (R46; log entries 18 and 19). -/
def Obligations.FinalActionServesTheHeldTrigger : Prop :=
  ∀ (s : State) (d : DispatchWork) (i : DueItem) (h : Instant), s.Hands d i →
    let r := s.entry i.entry
    let p := r.progWithStaged
    let next := h + BitVec.ofNat 32 (p.offsetAfter 0)
    r.state = .running → r.isEvery = true → r.heldTrigger = some h → r.prog.Lawful → p.Lawful →
    r.prog.count ≠ 0 → r.prog.count.toNat ≤ r.cyclesDone.toNat + 1 →
    (i.due - r.cycleStart).toNat = r.prog.lastOffset →
    ∃ t, exec .action s = .next t ∧
      s.StrobeServed t i.entry (r.prog.pointServed r.prog.lastOffset false || p.pointServed 0 true) ∧
      (let r' : Entry := { r with
          prog := p
          staged := Staged.none
          heldTrigger := none
          cycleStart := h
          cyclesDone := 0
          runsCompleted := BitVec.ofNat 16 (min 65535 (r.runsCompleted.toNat + 1))
          phase := p.phaseOf 0
          nextInstant := next
          worstSkew := r.skewAfter s.now i.due
          flags := { r.flags with strobeMerged := (t.entry i.entry).flags.strobeMerged } }
       if lateness next s.now ≤ 255 then
         t.entry i.entry = r' ∧ s.ItemBecomes t i.entry (some next) ∧ s.CallBecomes t i.entry (p.phaseOf 0).call ∧
           s.SameEntriesBut t [i.entry] ∧ t.lines = s.lines
       else r'.RetiredAs (t.entry i.entry) .overrun s.now ∧ t.Released i.entry ∧ s.LaneGoesIdle t i.entry) ∧
      t.dispatch = some (d.hand i.entry r.successor) ∧ s.SameOutsideRuns t

/-- The hand-off in a final action: the predecessor retires with its cycle and its run counted and its claims released; its
waiting successor begins its run at the nominal end with its START taken in the event, the link is gone at both ends, and the
heir of a shared lane becomes its owner with the level it calls for (R119, R120, R121, R103). Each starts the pulse it requests
on a LOW strobe line, the predecessor first, so that the successor's request on the same line is merged (R46, R109, R111; log
entry 18). -/
def Obligations.HandOffStartsTheSuccessor : Prop :=
  ∀ (s : State) (d : DispatchWork) (i : DueItem) (y : Fin 64), s.Hands d i →
    let r := s.entry i.entry
    let q := s.entry y
    let first := r.prog.pointServed r.prog.lastOffset false
    let second := q.prog.pointServed 0 true
    let line := r.prog.strobe.map StrobeUse.line
    r.state = .draining ∨
      (r.state = .running ∧ r.isEvery = false ∧ r.prog.count ≠ 0 ∧ r.prog.count.toNat ≤ r.cyclesDone.toNat + 1) →
    r.prog.Lawful → (i.due - r.cycleStart).toNat = r.prog.lastOffset →
    r.successor = some y → y ≠ i.entry → q.state = .pending → q.predecessor = some i.entry → q.staged = Staged.none →
    q.prog.Lawful →
    ∃ t, exec .action s = .next t ∧
      Entry.RetiredAs { r with
          cyclesDone := BitVec.ofNat 16 (min 65535 (r.cyclesDone.toNat + 1))
          runsCompleted := BitVec.ofNat 16 (min 65535 (r.runsCompleted.toNat + 1))
          phase := .rest
          nextInstant := i.due
          worstSkew := r.skewAfter s.now i.due
          flags := { r.flags with strobeMerged := r.flags.strobeMerged ||
            (first && r.prog.strobe.any fun u => decide ((s.strobe u.line).remaining ≠ 0)) } }
        (t.entry i.entry) (if r.state = .draining then .drained else .completed) s.now ∧
      t.Released i.entry ∧ s.HandedOver t i.entry y i.due ∧
      (∀ k : Fin 4, t.strobe k =
        if (s.strobe k).remaining = 0 ∧
          ((first = true ∧ line = some k) ∨ (second = true ∧ (q.prog.strobe.map StrobeUse.line) = some k))
        then { s.strobe k with remaining := (s.strobe k).width, countdownDue := false }
        else s.strobe k) ∧
      (t.entry y).flags.strobeMerged = (q.flags.strobeMerged || (second && q.prog.strobe.any fun u =>
        decide ((s.strobe u.line).remaining ≠ 0 ∨ (first = true ∧ line = some u.line ∧ (s.strobe u.line).width ≠ 0)))) ∧
      t.dispatch = some (d.hand i.entry (some y)) ∧ s.SameEntriesBut t (i.entry :: y :: r.predecessor.toList) ∧
      s.SameFilters t ∧ s.SameLaneSettings t ∧ s.SameOutsideRuns t

/-- STROBE_PULSE_END: the countdown of a strobe line takes `remaining` to zero, its pin goes LOW, and nothing else changes
(R110). -/
def Obligations.StrobePulseEnds : Prop :=
  ∀ (s : State) (k : Fin 4), s.inReset = false → (s.strobe k).countdownDue = true → (s.strobe k).remaining = 1 →
    exec (.strobePulseEnd k) s = .next (s.setStrobe k { s.strobe k with remaining := 0, countdownDue := false }) ∧
    s.strobePin k = .high ∧
    (s.setStrobe k { s.strobe k with remaining := 0, countdownDue := false }).strobePin k = .low

/-! ### Trigger lines -/

/-- TRIGGER_SAMPLE: a sample updates the filter of its line (R82); a change of accepted level that `edge` does not select
reaches no entry (R83). -/
def Obligations.TriggerSampleFilters : Prop :=
  ∀ (s : State) (n : Fin 8) (v : Level), s.inReset = false → (s.line n).sampleDue = true →
    let l := s.line n
    let changes := l.accepted ≠ none ∧ l.accepted ≠ some v ∧ l.depth ≤ l.runLength + 1
    let selected := l.edge = .both ∨ (l.edge = .rising ∧ v = .high) ∨ (l.edge = .falling ∧ v = .low)
    ∃ t, exec (.triggerSample n v) s = .next t ∧
      { t.line n with subs := [] } = { l with
        subs := []
        sampleDue := false
        accepted := if l.accepted = none ∨ changes then some v else l.accepted
        runLength := if l.accepted = none ∨ l.accepted = some v ∨ changes then 0 else l.runLength + 1 } ∧
      t.pins = (s.setTrg n v).pins ∧ t.trgLevel n = v ∧
      (∀ m : Fin 8, m ≠ n → { t.line m with subs := [] } = { s.line m with subs := [] }) ∧
      (¬ (changes ∧ selected) →
        t.entries = s.entries ∧ t.due = s.due ∧ t.lanes = s.lanes ∧ t.strobes = s.strobes ∧
          (∀ m : Fin 8, (t.line m).subs = (s.line m).subs)) ∧
      t.dispatch = s.dispatch ∧ s.SameTimebase t ∧ s.SameTrips t ∧ t.link = s.link ∧ t.pending = s.pending

/-- QUALIFIED_EDGE: the K-th differing sample, where `edge` selects the change, walks the subscription list and hands each entry
the effect of Table 5-5 for its state and policy (R83, R88 to R92). A RESTART whose strobe point is START starts a pulse on a
LOW line and is merged on a HIGH one, or on one that an entry before it in the list has asked for (R46, R91, R111); no entry, no
item and no lane of another entry changes. -/
def Obligations.QualifiedEdgeWalksTheList : Prop :=
  ∀ (s : State) (n : Fin 8) (a : Level), s.inReset = false → (s.line n).sampleDue = true →
    let l := s.line n
    l.accepted = some a → l.depth ≤ l.runLength + 1 →
    l.edge = .both ∨ (l.edge = .rising ∧ a = .low) ∨ (l.edge = .falling ∧ a = .high) → l.subs.Nodup →
    let restarts := fun e : Fin 64 => decide ((s.entry e).state = .running) && (s.entry e).start.any Start.restarts
    let asks := fun (e : Fin 64) (k : Fin 4) => restarts e && (s.entry e).progWithStaged.pointServed 0 true &&
      decide (((s.entry e).prog.strobe.map StrobeUse.line) = some k)
    let merges := fun e : Fin 64 => (List.finRange 4).any fun k => asks e k &&
      (decide ((s.strobe k).remaining ≠ 0) ||
        (decide ((s.strobe k).width ≠ 0) && (l.subs.takeWhile fun x => decide (x ≠ e)).any fun x => asks x k))
    exec (.qualifiedEdge n) s = exec (.triggerSample n (otherLevel a)) s ∧
    ∃ t, exec (.qualifiedEdge n) s = .next t ∧
      (t.line n).accepted = some (otherLevel a) ∧ (t.line n).runLength = 0 ∧
      (∀ e ∈ l.subs,
        let r := s.entry e
        let p := r.progWithStaged
        (r.state = .pending → r.start.bind Start.line? = some n →
          t.entry e = { r with
            state := .running, cycleStart := s.now, cyclesDone := 0, phase := .delay, nextInstant := s.now } ∧
          (t.due.filter fun i => decide (i.entry = e)) = [⟨s.now, e⟩] ∧
          (e ∈ (t.line n).subs ↔ r.isEvery = true)) ∧
        (r.isEvery = true → r.state = .draining ∨ (r.state = .running ∧ (r.start = some (.onTrigger n .every .ignore) ∨
            (r.start = some (.onTrigger n .every .holdOne) ∧ r.heldTrigger ≠ none))) →
          t.entry e = { r with missedTriggers := BitVec.ofNat 8 (min 255 (r.missedTriggers.toNat + 1)) } ∧
          e ∈ (t.line n).subs) ∧
        (r.state = .running → r.start = some (.onTrigger n .every .holdOne) → r.heldTrigger = none →
          t.entry e = { r with heldTrigger := some s.now } ∧ e ∈ (t.line n).subs) ∧
        (r.state = .running → r.start = some (.onTrigger n .every .restart) → p.Lawful →
          t.entry e = { r with
            prog := p
            staged := Staged.none
            cycleStart := s.now
            cyclesDone := 0
            phase := p.phaseOf 0
            nextInstant := s.now + BitVec.ofNat 32 (p.offsetAfter 0)
            flags := { r.flags with strobeMerged := r.flags.strobeMerged || merges e } } ∧
          (t.due.filter fun i => decide (i.entry = e)) = [⟨s.now + BitVec.ofNat 32 (p.offsetAfter 0), e⟩] ∧
          (∀ lane : Fin 16, r.prog.lane = some lane → (s.lane lane).owner = some e →
            t.lane lane = { s.lane lane with call := (p.phaseOf 0).call }) ∧
          e ∈ (t.line n).subs)) ∧
      (∀ k : Fin 4, t.strobe k =
        if (s.strobe k).remaining = 0 ∧ ∃ e ∈ l.subs, asks e k = true
        then { s.strobe k with remaining := (s.strobe k).width, countdownDue := false }
        else s.strobe k) ∧
      s.SameEntriesBut t l.subs ∧
      (t.due.filter fun i => !l.subs.contains i.entry) = (s.due.filter fun i => !l.subs.contains i.entry) ∧
      (∀ lane : Fin 16, (∀ e ∈ l.subs, restarts e = true → (s.entry e).prog.lane ≠ some lane) → t.lane lane = s.lane lane) ∧
      s.SameTimebase t ∧ s.SameTrips t ∧ t.link = s.link ∧ t.dispatch = s.dispatch

/-! ### Trip protection -/

/-- TRIP_FILTER_SAMPLE: one sample of an input updates the filter of an enabled source, and the K-th of a run changes its input
state, which trips a QUIET source's group; a disabled source takes no sample (R127, R128, R129, R131, R132). -/
def Obligations.TripFilterSampleFilters : Prop :=
  ∀ (s : State) (i : TripInput) (v : Level), s.Steady →
    let u := s.setTripPin i v
    let r := s.trip i
    let read : InputState := if v = r.activeLevel then .active else .inactive
    ∃ t, exec (.tripFilterSample i v) s = .next t ∧
      (r.enabled = false → t = u) ∧
      (r.enabled = true → read = r.inputState → t = u.setTrip i { r with runLength := 0 }) ∧
      (r.enabled = true → read ≠ r.inputState → r.runLength + 1 < r.depth →
        t = u.setTrip i { r with runLength := r.runLength + 1 }) ∧
      (r.enabled = true → read ≠ r.inputState → r.depth ≤ r.runLength + 1 →
        (read = .inactive → t = u.setTrip i { r with
          inputState := .inactive, runLength := 0, state := if r.state = .held then .latched else r.state }) ∧
        (read = .active → t.trip i = { r with inputState := .active, runLength := 0, state := .held } ∧
          if r.state = .quiet then s.Tripped t (tripIdOf i) r.group
          else t = u.setTrip i { r with inputState := .active, runLength := 0, state := .held }))

/-- TRIP_INPUT_ACTIVE and TRIP_INPUT_INACTIVE: the change of input state of an enabled source. A QUIET source becomes HELD and
trips its group, a LATCHED one becomes HELD and touches no lane; a HELD one becomes LATCHED (R129, R131, R132). The events
stand for K consecutive samples, after which the pin shows the level read (log entry 6). -/
def Obligations.TripInputChangesTheState : Prop :=
  ∀ (s : State) (i : TripInput), s.Steady → (s.trip i).enabled = true →
    let r := s.trip i
    let active := s.setTripPin i r.activeLevel
    let inactive := s.setTripPin i (otherLevel r.activeLevel)
    (r.inputState = .inactive → r.state = .quiet →
      ∃ t, exec (.tripInputActive i) s = .next t ∧ s.Tripped t (tripIdOf i) r.group ∧
        t.trip i = { r with inputState := .active, runLength := 0, state := .held } ∧ t.link = s.link ∧
        t.pins = active.pins ∧ t.soft = s.soft) ∧
    (r.inputState = .inactive → r.state = .latched →
      exec (.tripInputActive i) s =
        .next (active.setTrip i { r with inputState := .active, runLength := 0, state := .held })) ∧
    (r.inputState = .active →
      exec (.tripInputActive i) s = .next (active.setTrip i { r with runLength := 0 }) ∧
      exec (.tripInputInactive i) s = .next (inactive.setTrip i { r with
        inputState := .inactive, runLength := 0, state := if r.state = .held then .latched else r.state })) ∧
    (r.inputState = .inactive →
      exec (.tripInputInactive i) s = .next (inactive.setTrip i { r with runLength := 0 }))

/-- The events TRIP_INPUT_ACTIVE and TRIP_INPUT_INACTIVE are K samples of one level: after K consecutive samples of an enabled
source the part is where the event puts it (R128; the reading of the events is log entry 6). -/
def Obligations.TripRunIsKSamples : Prop :=
  ∀ (s : State) (i : TripInput), s.Steady → (s.trip i).enabled = true → (s.trip i).runLength < (s.trip i).depth →
    execAll (List.replicate (s.trip i).depth (.tripFilterSample i (s.trip i).activeLevel)) s =
      exec (.tripInputActive i) s ∧
    execAll (List.replicate (s.trip i).depth (.tripFilterSample i (otherLevel (s.trip i).activeLevel))) s =
      exec (.tripInputInactive i) s

/-! ### The link -/

/-- CS_N_FALL opens a transaction with the frame that the state of the buffer chooses: the stored response, NO_RESPONSE or
NOT_READY (R140, Table 10-4); BYTE_RECEIVED counts a byte and keeps it among the first 64 (R139). -/
def Obligations.TransactionOpensAndReceives : Prop :=
  ∀ (s : State) (b : Byte), s.inReset = false →
    (s.link.transaction = .closed →
      exec .csNFall s = .next { s with
        pins := { s.pins with csN := .low }
        link := { s.link with
          transaction := if s.link.buffer.isExecuting then .discarding else .ordinary
          received := []
          count := 0
          outgoing := match s.link.buffer with
            | .ready frame => some frame
            | .empty => some [0xE1, 0x00, 0x00, 0xA5]
            | .executing _ => some [0xE0, 0x00, 0x00, 0xCE] } }) ∧
    (s.link.transaction = .ordinary ∨ s.link.transaction = .discarding →
      exec (.byteReceived b) s = .next { s with
        link := { s.link with
          count := s.link.count + 1
          received := if s.link.received.length < 64 then s.link.received ++ [b] else s.link.received } })

/-- CS_N_RISE closes the transaction; an ORDINARY one that received a byte is judged by Table 9-3 and the buffer is EXECUTING,
any other leaves the buffer as it was (R143, R144, R147, R153). The close of 0 bytes, and the end of WAIT_HIGH, leave every other
state of the part unchanged, and no close changes the outgoing frame. That a close of 1 byte or more leaves no received bytes is
read from Table 9-1, which gives them to the open transaction (log entry 24). -/
def Obligations.CsNRiseJudges : Prop :=
  ∀ (s : State), s.inReset = false → s.link.transaction ≠ .closed →
    let n := s.link.count
    let b := fun k => s.link.received.getD k 0
    let len := (b 2).toNat
    let payload := (s.link.received.drop 3).take len
    let answer := fun (tag : Byte) (st : Status) => Buffer.executing (.answered tag ⟨st, []⟩)
    s.link.received.length = min 64 n →
    ∃ t, exec .csNRise s = .next t ∧
      t = { s with
        pins := { s.pins with csN := .high }
        link := { s.link with
          transaction := .closed, received := t.link.received, count := t.link.count
          buffer := t.link.buffer, age := t.link.age } } ∧
      (s.link.transaction ≠ .ordinary ∨ n = 0 → t.link.buffer = s.link.buffer ∧ t.link.age = s.link.age) ∧
      (if s.link.transaction = .waitHigh ∨ n = 0 then t.link.received = s.link.received ∧ t.link.count = n
        else t.link.received = [] ∧ t.link.count = 0) ∧
      (s.link.transaction = .ordinary → n ≠ 0 → t.link.buffer =
        if n < 4 then answer (if n = 1 then 0 else b 1) .frameError
        else if 60 < len then answer (b 1) .frameError
        else if n < len + 4 then answer (b 1) .frameError
        else if b (len + 3) ≠ crc8 (s.link.received.take (len + 3)) then answer (b 1) .frameError
        else if b 0 ∉ requestCodes then answer (b 1) .badRequest
        else match requestOf (b 0) (b 1) payload with
          | some request => .executing (.waiting request)
          | none => answer (b 1) .paramRange)

/-- EXECUTION_END puts the response of a request whose take point has passed into the buffer, which is READY: status, tag,
length, payload and CRC (R141, R144, R146). -/
def Obligations.ExecutionEndBuildsTheResponse : Prop :=
  ∀ (s : State) (tag : Byte) (a : Answer), s.inReset = false →
    s.link.buffer = .executing (.answered tag a) →
    exec .executionEnd s = .next { s with
      link := { s.link with
        age := 0
        buffer := .ready ([a.status.code, tag, BitVec.ofNat 8 a.payload.length] ++ a.payload ++
          [crc8 ([a.status.code, tag, BitVec.ofNat 8 a.payload.length] ++ a.payload)]) } }

/-- Taking a judged request and then ending its execution leaves what ending the execution alone leaves, and what the request
leaves as a whole command on the same part with an empty buffer: nothing a request does depends on the link (R146; log
entry 2). -/
def Obligations.TakePointThenEnd : Prop :=
  ∀ (s : State) (c : Instr), s.inReset = false → isRequest c = true → s.link.buffer = .executing (.waiting c) →
    ∃ t, exec c s = .next t ∧ t.link.buffer.isExecuting = true ∧
      exec .executionEnd t = exec .executionEnd s ∧
      exec c (s.setBuffer .empty) = exec .executionEnd s

/-- A request that is not the judged one ends any execution, finds the whole of a tick event in progress, and acts on the steady
part that they leave (R2, R146; log entries 2 and 3, the model's choice). -/
def Obligations.RequestFindsASteadyPart : Prop :=
  ∀ (s : State) (c : Instr), s.inReset = false → isRequest c = true → s.link.buffer ≠ .executing (.waiting c) →
    ∃ t, exec .executionEnd s = .next t ∧ t.settle.Steady ∧ exec c s = exec c t.settle

/-- The bytes of a request's frame, received in an ORDINARY transaction and closed by CS_N rise, are judged to be that request,
whatever its operands (R139, R141, R142, R143, R154 to R165; that the close leaves no received bytes
is read from Table 9-1, log entry 24). -/
def Obligations.FrameIsJudgedToBeTheRequest : Prop :=
  ∀ (s : State) (c : Instr) (frame : List Byte), s.inReset = false →
    s.link.transaction = .ordinary → s.link.received = [] → s.link.count = 0 →
    c.wellFormed = true → (∀ tag n kind block members, c = .scheduleSet tag n kind block members →
      members.length = n.toNat) →
    c.frame = some frame →
    execAll (frame.map Instr.byteReceived ++ [.csNRise]) s = .next { s with
      pins := { s.pins with csN := .high }
      link := { s.link with
        transaction := .closed, received := [], count := 0
        buffer := .executing (.waiting c), age := 0 } }

/-- The CRC-8 over a whole frame leaves 0x00 exactly when its last byte is the CRC the earlier bytes call for (R142). -/
def Obligations.CrcClosesAFrame : Prop :=
  ∀ (bytes : List Byte) (c : Byte), crc8 (bytes ++ [c]) = 0 ↔ c = crc8 bytes

/-- Every request on a steady part is answered with a whole frame that carries its tag, changes the link in nothing but the
buffer, and, where its status is not OK, changes nothing else of the part (R141, R142, R144, R154). -/
def Obligations.EveryRequestIsAnswered : Prop :=
  ∀ (s : State) (c : Instr), s.Steady → isRequest c = true →
    ∃ t, exec c s = .next t ∧
      (let frame := t.link.buffer.frame
       t.link = { s.link with buffer := .ready frame, age := 0 } ∧
       4 ≤ frame.length ∧ frame.length ≤ 64 ∧ frame.getD 1 0 = c.tag ∧
       (frame.getD 2 0).toNat + 4 = frame.length ∧ crc8 frame = 0 ∧
       t.pins = s.pins ∧ t.pending = s.pending ∧
       (frame.getD 0 0 ≠ 0 → t = s.setBuffer (.ready frame)))

/-- NOP carries no payload and is answered OK with its tag in every state of the part, and changes nothing outside the response
buffer (R151). -/
def Obligations.NopOnlyAnswers : Prop :=
  ∀ (s : State) (tag : Byte),
    requestOf 0x00 tag [] = some (.nop tag) ∧
    (s.Steady → exec (.nop tag) s = .next (s.setBuffer (.ready [0x00, tag, 0x00, crc8 [0x00, tag, 0x00]])))

/-! ### The time requests -/

/-- READ_TIME reports `now` and the divider of the next tick. SET_TIME, refused TIMEBASE_BUSY while an entry is PENDING, RUNNING
or DRAINING, writes `now` and begins a new tick. SET_DIVIDER is judged PARAM_RANGE and then TIMEBASE_BUSY, and records the
divider for the ticks that begin from then on (R155, R8, R9, R10, R12, R13). -/
def Obligations.TimeRequests : Prop :=
  ∀ (s : State) (tag b3 b2 b1 b0 : Byte), s.Steady →
    let busy := ∃ e : Fin 64,
      (s.entry e).state = .pending ∨ (s.entry e).state = .running ∨ (s.entry e).state = .draining
    let m := (ofBytes2 b1 b0).toNat
    let readTime := Instr.readTime tag
    let setTime := Instr.setTime tag (ofBytes4 b3 b2 b1 b0)
    let setDivider := Instr.setDivider tag (ofBytes2 b1 b0)
    requestOf 0x01 tag [] = some readTime ∧
    requestOf 0x02 tag [b3, b2, b1, b0] = some setTime ∧
    requestOf 0x03 tag [b1, b0] = some setDivider ∧
    exec readTime s = .next (s.answered readTime ⟨.ok, bytes4 s.now ++ bytes2 (BitVec.ofNat 16 s.divider)⟩) ∧
    exec setTime s = .next (if busy then s.answered setTime ⟨.timebaseBusy, []⟩
      else { s with now := ofBytes4 b3 b2 b1 b0, tickPhase := 0, tickLength := s.divider }.answered setTime ⟨.ok, []⟩) ∧
    exec setDivider s = .next (if m = 0 ∨ 256 < m then s.answered setDivider ⟨.paramRange, []⟩
      else if busy then s.answered setDivider ⟨.timebaseBusy, []⟩
      else { s with divider := m }.answered setDivider ⟨.ok, []⟩)

/-! ### The entry requests -/

/-- DEFINE: BAD_ENTRY, then ENTRY_STATE unless FREE or IDLE, then PARAM_RANGE for a byte that names no value or a programme that
is not valid; accepted, it writes the whole programme and the entry is IDLE (R14, R18, R20, R21, R156). -/
def Obligations.DefineWritesTheProgramme : Prop :=
  ∀ (s : State) (tag e l st nt : Byte) (delay width period : Ticks) (count : Count), s.Steady →
    let c := Instr.define tag e l delay width period count st nt
    (64 ≤ e.toNat → exec c s = .next (s.answered c ⟨.badEntry, []⟩)) ∧
    (∀ i : Fin 64, i.val = e.toNat →
      let r := s.entry i
      let lane : Option (Fin 16) := if h : l.toNat < 16 then some ⟨l.toNat, h⟩ else none
      let point : StrobePoint := if st.extractLsb' 4 2 = 0 then .start else if st.extractLsb' 4 2 = 1 then .active else .inactive
      let strobe : Option StrobeUse := if st.getLsbD 7 then some ⟨(st.extractLsb' 0 2).toFin, point⟩ else none
      let p : Programme := ⟨lane, delay, width, period, count, strobe, decide (nt = 1)⟩
      (r.state ≠ .free → r.state ≠ .idle → exec c s = .next (s.answered c ⟨.entryState, []⟩)) ∧
      (r.state = .free ∨ r.state = .idle →
        (l.toNat < 16 ∨ l = 0xFF) ∧ nt.toNat ≤ 1 ∧ p.Lawful ∧
          (st.getLsbD 7 = true → st &&& 0x4C = 0 ∧ st.extractLsb' 4 2 ≠ 3) →
        exec c s = .next ((s.setEntry i { r with state := .idle, prog := p }).answered c ⟨.ok, []⟩)) ∧
      (r.state = .free ∨ r.state = .idle →
        ¬ ((l.toNat < 16 ∨ l = 0xFF) ∧ nt.toNat ≤ 1 ∧ p.Lawful ∧
          (st.getLsbD 7 = true → st &&& 0x4C = 0 ∧ st.extractLsb' 4 2 ≠ 3)) →
        exec c s = .next (s.answered c ⟨.paramRange, []⟩)))

/-- SCHEDULE is judged by its checks in their order, and the first that fails gives the status (R157, R14, R22, R23, R24, R101,
R115, R117). A predecessor that has a successor is CHAIN_INVALID by R115 and that order, also where R118 says LANE_BUSY of a
second heir (log entry 23, the model's choice). -/
def Obligations.ScheduleChecksInOrder : Prop :=
  ∀ (s : State) (tag e kind : Byte) (b : StartBlock), s.Steady →
    let c := Instr.schedule tag e kind b
    let t : Instant := ofBytes4 b.b0 b.b1 b.b2 b.b3
    let fieldsOk := (kind = 1 ∧ b.b4.toNat ≤ 1) ∨
      (kind = 2 ∧ b.b0.toNat ≤ 7 ∧ (b.b1 = 0 ∨ (b.b1 = 1 ∧ b.b2.toNat ≤ 2))) ∨ kind = 3
    (64 ≤ e.toNat → exec c s = .next (s.answered c ⟨.badEntry, []⟩)) ∧
    (∀ i : Fin 64, i.val = e.toNat →
      let r := s.entry i
      let chainOk := ∃ p : Fin 64, p.val = b.b0.toNat ∧ p ≠ i ∧ (s.entry p).successor = none ∧
        ((s.entry p).state = .pending ∨ (s.entry p).state = .running ∨ (s.entry p).state = .draining)
      let tripped := ∃ l : Fin 16, r.prog.lane = some l ∧ (s.lane l).trippedBy ≠ TrippedBy.empty
      let heirClaim := fun l : Fin 16 =>
        kind = 3 ∧ (s.lane l).heir = none ∧ (∃ p : Fin 64, p.val = b.b0.toNat ∧ (s.lane l).owner = some p)
      let busy := ∃ l : Fin 16, r.prog.lane = some l ∧ ¬ heirClaim l ∧ ((s.lane l).owner ≠ none ∨ (s.lane l).heir ≠ none)
      let forced := ∃ l : Fin 16, r.prog.lane = some l ∧ (s.lane l).owner = none ∧ (s.lane l).forced ≠ none
      let late := kind = 1 ∧ b.b4 = 0 ∧ signedDiff t s.now < 0
      let refused := fun st : Status => exec c s = .next (s.answered c ⟨st, []⟩)
      if r.state ≠ .idle then refused .entryState
      else if ¬ fieldsOk then refused .paramRange
      else if kind = 3 ∧ ¬ chainOk then refused .chainInvalid
      else if tripped then refused .laneTripped
      else if busy then refused .laneBusy
      else if forced then refused .laneForced
      else if late then refused .timePast
      else ∃ u, exec c s = .next u ∧ u.link.buffer = .ready (frameOf 0x00 tag []))

/-- SCHEDULE AT_TIME of an IDLE entry whose lane is free: the entry is PENDING with its item due at T, or at `now` with
LATE_START where T is past and `late_ok` is yes, and owns its lane (R22, R23, R26, R68, R101). -/
def Obligations.ScheduleAtTime : Prop :=
  ∀ (s : State) (tag e late : Byte) (i : Fin 64) (T : Instant), s.Steady → i.val = e.toNat →
    let r := s.entry i
    let past := signedDiff T s.now < 0
    let due := if past then s.now else T
    let c := Instr.schedule tag e 1
      ⟨T.extractLsb' 24 8, T.extractLsb' 16 8, T.extractLsb' 8 8, T.extractLsb' 0 8, late⟩
    r.state = .idle → s.LaneFree i → late.toNat ≤ 1 → (past → late = 1) →
    ∃ t, exec c s = .next t ∧
      t.entry i = { r with
        state := .pending
        start := some (.atTime due (decide (late = 1)))
        nextInstant := due
        flags := { r.flags with lateStart := r.flags.lateStart || decide past } } ∧
      s.ItemBecomes t i (some due) ∧ s.OwnedBy t i ∧ s.SameEntriesBut t [i] ∧
      t.lines = s.lines ∧ t.strobes = s.strobes ∧ s.SameTimebase t ∧ s.SameTrips t ∧
      t.link = { s.link with buffer := .ready (frameOf 0x00 tag []), age := 0 }

/-- SCHEDULE ON_TRIGGER of an IDLE entry whose lane is free: the entry is PENDING, joins the tail of its line's list and owns its
lane; a ONCE start records IGNORE (R22, R24, R26, R86, R101). -/
def Obligations.ScheduleOnTrigger : Prop :=
  ∀ (s : State) (tag e mode policy b3 b4 : Byte) (i : Fin 64) (n : Fin 8), s.Steady → i.val = e.toNat →
    let r := s.entry i
    let c := Instr.schedule tag e 2 ⟨BitVec.ofNat 8 n.val, mode, policy, b3, b4⟩
    let start : Start := if mode = 0 then .onTrigger n .once .ignore
      else .onTrigger n .every (if policy = 0 then .ignore else if policy = 1 then .restart else .holdOne)
    r.state = .idle → s.LaneFree i → mode = 0 ∨ (mode = 1 ∧ policy.toNat ≤ 2) →
    ∃ t, exec c s = .next t ∧
      t.entry i = { r with state := .pending, start := some start } ∧
      (t.line n).subs = (s.line n).subs ++ [i] ∧ (∀ m : Fin 8, m ≠ n → t.line m = s.line m) ∧ s.SameFilters t ∧
      t.due = s.due ∧ s.OwnedBy t i ∧ s.SameEntriesBut t [i] ∧
      t.strobes = s.strobes ∧ s.SameTimebase t ∧ s.SameTrips t ∧
      t.link = { s.link with buffer := .ready (frameOf 0x00 tag []), age := 0 }

/-- SCHEDULE AFTER a scheduled predecessor without a successor: the link is made at both ends, and the entry claims its lane, as
heir where the predecessor owns it (R22, R25, R115, R116, R117, R118). -/
def Obligations.ScheduleAfter : Prop :=
  ∀ (s : State) (tag e b1 b2 b3 b4 : Byte) (i p : Fin 64), s.Steady → i.val = e.toNat →
    let r := s.entry i
    let c := Instr.schedule tag e 3 ⟨BitVec.ofNat 8 p.val, b1, b2, b3, b4⟩
    let heirs := ∃ l : Fin 16, r.prog.lane = some l ∧
      (s.lane l).trippedBy = TrippedBy.empty ∧ (s.lane l).owner = some p ∧ (s.lane l).heir = none
    r.state = .idle → p ≠ i → (s.entry p).scheduled = true → (s.entry p).successor = none → heirs ∨ s.LaneFree i →
    ∃ t, exec c s = .next t ∧
      t.entry i = { r with state := .pending, start := some (.after p), predecessor := some p } ∧
      t.entry p = { s.entry p with successor := some i } ∧ s.SameEntriesBut t [i, p] ∧
      (if heirs then ∀ l : Fin 16, t.lane l =
          if r.prog.lane = some l then { s.lane l with heir := some i } else s.lane l
        else s.OwnedBy t i) ∧
      t.due = s.due ∧ t.lines = s.lines ∧ t.strobes = s.strobes ∧ s.SameTimebase t ∧ s.SameTrips t ∧
      t.link = { s.link with buffer := .ready (frameOf 0x00 tag []), age := 0 }

/-- SCHEDULE_SET schedules all its members or none: judged as a whole first, it then does what SCHEDULE requests of its members
do one after another, or, where one of them is refused, changes nothing and reports its index and status (R124, R125, R126,
R158). -/
def Obligations.ScheduleSetIsAllOrNone : Prop :=
  ∀ (s : State) (tag kind : Byte) (b : StartBlock) (members : List Byte), s.Steady → members.length ≤ maxMembers →
    let c := Instr.scheduleSet tag (BitVec.ofNat 8 members.length) kind b members
    let whole := 1 ≤ members.length ∧ members.length ≤ 8 ∧
      ((kind = 1 ∧ b.b4.toNat ≤ 1) ∨ (kind = 2 ∧ b.b0.toNat ≤ 7 ∧ b.b1 = 0))
    let each := scheduleEach tag kind b 0 members s
    exec c s = .next
      (if whole then
        match each.2 with
        | none => each.1.setBuffer (.ready (frameOf 0x00 tag []))
        | some failed => s.setBuffer (.ready (frameOf 0x09 tag [BitVec.ofNat 8 failed.1, failed.2]))
      else s.setBuffer (.ready (frameOf 0x02 tag [])))

/-- AMEND is refused BAD_ENTRY for a number that names no entry, and ENTRY_STATE for a FREE, IDLE, DRAINING or DONE entry, whatever
the mask. Of a PENDING entry it writes the named values into the programme where the programme they leave is valid; a mask of 0
changes nothing (R54, R55, R159; log entry 17 on the mask of 0). -/
def Obligations.AmendOfAPendingEntry : Prop :=
  ∀ (s : State) (tag e mask : Byte) (delay width period : Ticks) (count : Count), s.Steady →
    let c := Instr.amend tag e mask delay width period count
    (64 ≤ e.toNat → exec c s = .next (s.answered c ⟨.badEntry, []⟩)) ∧
    (∀ i : Fin 64, i.val = e.toNat →
      let r := s.entry i
      let p : Programme := { r.prog with
        delay := if mask.getLsbD 0 then delay else r.prog.delay
        width := if mask.getLsbD 1 then width else r.prog.width
        period := if mask.getLsbD 2 then period else r.prog.period
        count := if mask.getLsbD 3 then count else r.prog.count }
      (r.state = .free ∨ r.state = .idle ∨ r.state = .draining ∨ r.state = .done →
        exec c s = .next (s.answered c ⟨.entryState, []⟩)) ∧
      (r.state = .pending → exec c s = .next
        (if mask = 0 then s.answered c ⟨.ok, []⟩
        else if 16 ≤ mask.toNat then s.answered c ⟨.paramRange, []⟩
        else if p.Lawful then (s.setEntry i { r with prog := p }).answered c ⟨.ok, []⟩
        else s.answered c ⟨.paramRange, []⟩)))

/-- AMEND of a RUNNING entry stages D, W and P and writes N; it is refused for a change of kind, or where the values in force now
or those from the next START are not valid; an N at or below `cycles done` shortens the run (R54, R56, R57, R159; log entry 17
on the mask of 0). -/
def Obligations.AmendOfARunningEntry : Prop :=
  ∀ (s : State) (tag e mask : Byte) (delay width period : Ticks) (count : Count) (i : Fin 64), s.Steady →
    i.val = e.toNat → (s.entry i).state = .running →
    let r := s.entry i
    let c := Instr.amend tag e mask delay width period count
    let n := if mask.getLsbD 3 then count else r.prog.count
    let staged : Staged := ⟨if mask.getLsbD 0 then some delay else r.staged.delay,
      if mask.getLsbD 1 then some width else r.staged.width, if mask.getLsbD 2 then some period else r.staged.period⟩
    let kindChanges := ¬ (n = 1 ↔ r.prog.count = 1)
    let nowInForce : Programme := { r.prog with count := n }
    let nextInForce : Programme := { Entry.progWithStaged { r with staged := staged } with count := n }
    let shortened := mask.getLsbD 3 = true ∧ n ≠ 0 ∧ n.toNat ≤ r.cyclesDone.toNat
    exec c s = .next
      (if mask = 0 then s.answered c ⟨.ok, []⟩
      else if 16 ≤ mask.toNat ∨ kindChanges ∨ ¬ nowInForce.Lawful ∨ ¬ nextInForce.Lawful then
        s.answered c ⟨.paramRange, []⟩
      else (s.setEntry i { r with
        prog := nowInForce
        staged := staged
        cyclesDone := if shortened then n - 1 else r.cyclesDone }).answered c ⟨.ok, []⟩)

/-- DRAIN, CANCEL, QUERY, ACK and RELEASE carry one byte and are judged BAD_ENTRY and then ENTRY_STATE, against the states of
Table 10-9; an accepted one is answered OK, with no payload but for QUERY (R160). -/
def Obligations.SingleEntryRequestChecks : Prop :=
  ∀ (s : State) (tag e : Byte), s.Steady →
    requestOf 0x14 tag [e] = some (.drain tag e) ∧ requestOf 0x15 tag [e] = some (.cancel tag e) ∧
    requestOf 0x16 tag [e] = some (.query tag e) ∧ requestOf 0x17 tag [e] = some (.ack tag e) ∧
    requestOf 0x18 tag [e] = some (.release tag e) ∧
    (64 ≤ e.toNat → ∀ c ∈ [Instr.drain tag e, .cancel tag e, .query tag e, .ack tag e, .release tag e],
      exec c s = .next (s.answered c ⟨.badEntry, []⟩)) ∧
    (∀ i : Fin 64, i.val = e.toNat →
      let r := s.entry i
      let judged := fun (c : Instr) (taken : Bool) =>
        ∃ t, exec c s = .next t ∧
          if taken then t.link.buffer = .ready (frameOf 0x00 tag []) else t = s.answered c ⟨.entryState, []⟩
      judged (.drain tag e) (r.state = .running || (r.state = .pending && r.isEvery)) ∧
      judged (.cancel tag e) (r.state = .pending || r.state = .running || r.state = .draining) ∧
      judged (.ack tag e) (r.state = .done) ∧ judged (.release tag e) (r.state = .idle || r.state = .done) ∧
      ∃ t, exec (.query tag e) s = .next t ∧ t = s.setBuffer (.ready t.link.buffer.frame) ∧
        t.link.buffer.frame.length = 63 ∧ t.link.buffer.frame.head? = some 0x00)

/-- DRAIN makes a RUNNING entry DRAINING and discards its held trigger; it retires a PENDING EVERY entry DRAINED at `now`, with no
run counted, and hands off to its waiting successor, whose run begins at `now` with its START taken (R59, R60, R27, R28, R103,
R120). -/
def Obligations.DrainEndsAtTheCycle : Prop :=
  ∀ (s : State) (tag e : Byte) (i : Fin 64), s.Steady → i.val = e.toNat →
    let r := s.entry i
    let c := Instr.drain tag e
    (r.state = .running → exec c s = .next ((s.setEntry i { r with
      state := .draining
      heldTrigger := none
      missedTriggers := if r.heldTrigger = none then r.missedTriggers
        else BitVec.ofNat 8 (min 255 (r.missedTriggers.toNat + 1)) }).answered c ⟨.ok, []⟩)) ∧
    (r.state = .pending → r.isEvery = true → r.successor ≠ some i → ∃ t, exec c s = .next t ∧
      r.RetiredAs (t.entry i) .drained s.now ∧ t.Released i ∧
      (r.successor = none → s.LaneGoesIdle t i ∧ s.SameEntriesBut t (i :: r.predecessor.toList)) ∧
      (∀ y : Fin 64, r.successor = some y → (s.entry y).state = .pending → (s.entry y).staged = Staged.none →
        (s.entry y).prog.Lawful →
        s.HandedOver t i y s.now ∧ s.StrobeServed t y ((s.entry y).prog.pointServed 0 true) ∧
        s.SameEntriesBut t (i :: y :: r.predecessor.toList) ∧ s.SameLaneSettings t) ∧
      s.SameTimebase t ∧ s.SameTrips t ∧ s.SameFilters t)

/-- CANCEL retires a PENDING, RUNNING or DRAINING entry CANCELLED at `now`, releases its claims, and breaks the chain behind it to
its tail, each entry CHAIN_BROKEN at `now` with its claims released; no other entry changes but for its link to one retired,
and a strobe pulse goes on (R62, R27, R28, R103, R122, R113). -/
def Obligations.CancelRetiresAtOnce : Prop :=
  ∀ (s : State) (tag e : Byte) (i : Fin 64), s.Steady → i.val = e.toNat → (s.entry i).scheduled = true →
    ∃ t, exec (.cancel tag e) s = .next t ∧
      (s.entry i).RetiredAs (t.entry i) .cancelled s.now ∧ t.Released i ∧ s.LaneGoesIdle t i ∧
      s.ChainBroken t i ∧ t.strobes = s.strobes ∧ s.SameTimebase t ∧ s.SameTrips t ∧ s.SameFilters t ∧
      t.link = { s.link with buffer := .ready (frameOf 0x00 tag []), age := 0 } ∧
      ((s.entry i).successor = none → s.SameEntriesBut t (i :: (s.entry i).predecessor.toList))

/-- ACK returns a DONE entry to IDLE with its programme alone; RELEASE frees an IDLE or DONE entry, with every field at its cleared
value (R34, R35, Table 2-1). -/
def Obligations.AckAndReleaseClear : Prop :=
  ∀ (s : State) (tag e : Byte) (i : Fin 64), s.Steady → i.val = e.toNat →
    let cleared : Entry :=
      { state := .free, prog := ⟨none, 0, 0, 0, 0, none, false⟩, start := none, phase := .delay, cycleStart := 0,
        nextInstant := 0, cyclesDone := 0, runsCompleted := 0, heldTrigger := none, staged := ⟨none, none, none⟩,
        predecessor := none, successor := none, missedTriggers := 0, worstSkew := 0,
        flags := ⟨false, false, false⟩, outcome := none, retiredAt := none }
    ((s.entry i).state = .done → exec (.ack tag e) s = .next ((s.setEntry i { cleared with
      state := .idle, prog := (s.entry i).prog }).answered (.ack tag e) ⟨.ok, []⟩)) ∧
    ((s.entry i).state = .done ∨ (s.entry i).state = .idle →
      exec (.release tag e) s = .next ((s.setEntry i cleared).answered (.release tag e) ⟨.ok, []⟩))

/-- QUERY reports the whole record and changes nothing: 59 bytes at the places of Table 10-10, in the encodings of Tables 10-5 and
10-7, from which every record that keeps the law of its optional parts can be told from every other (R33, R161). -/
def Obligations.QueryReportsTheWholeRecord : Prop :=
  ∀ (s : State) (tag e : Byte) (i : Fin 64) (r' : Entry), s.Steady → i.val = e.toNat →
    let r := s.entry i
    let b := fun k : Nat => (queryPayload i r).getD k 0
    let numbered := fun (n : Nat) (x : Option Nat) => b n = (x.map (BitVec.ofNat 8)).getD 0xFF
    exec (.query tag e) s = .next (s.answered (.query tag e) ⟨.ok, queryPayload i r⟩) ∧
    (queryPayload i r).length = 59 ∧
    b 0 = e ∧
    b 1 = (if r.state = .free then 0 else if r.state = .idle then 1 else if r.state = .pending then 2
      else if r.state = .running then 3 else if r.state = .draining then 4 else 5) ∧
    b 2 = (if r.phase = .delay then 0 else if r.phase = .active then 1 else 2) ∧
    numbered 3 (r.prog.lane.map Fin.val) ∧
    b 4 ++ b 5 ++ b 6 = r.prog.delay ∧ b 7 ++ b 8 ++ b 9 = r.prog.width ∧ b 10 ++ b 11 ++ b 12 = r.prog.period ∧
    b 13 ++ b 14 = r.prog.count ∧
    (r.prog.strobe = none → b 15 = 0) ∧
    (∀ u ∈ r.prog.strobe, (b 15).toNat =
      128 + 16 * (if u.point = .start then 0 else if u.point = .active then 1 else 2) + u.line.val) ∧
    b 16 = (if r.prog.notify then 1 else 0) ∧
    [b 17, b 18, b 19, b 20, b 21, b 22] = (match r.start with
      | none => [0, 0, 0, 0, 0, 0]
      | some (.atTime T late) => [1, T.extractLsb' 24 8, T.extractLsb' 16 8, T.extractLsb' 8 8, T.extractLsb' 0 8,
        if late then 1 else 0]
      | some (.onTrigger n mode policy) => [2, BitVec.ofNat 8 n.val, if mode = .once then 0 else 1,
        if mode = .once ∨ policy = .ignore then 0 else if policy = .restart then 1 else 2, 0, 0]
      | some (.after p) => [3, BitVec.ofNat 8 p.val, 0, 0, 0, 0]) ∧
    b 23 ++ b 24 ++ b 25 ++ b 26 = r.cycleStart ∧ b 27 ++ b 28 ++ b 29 ++ b 30 = r.nextInstant ∧
    b 31 ++ b 32 = r.cyclesDone ∧ b 33 ++ b 34 = r.runsCompleted ∧
    b 35 = r.missedTriggers ∧ b 36 = r.worstSkew ∧
    b 37 = (if r.flags.lateStart then 1 else 0) + (if r.flags.strobeMerged then 2 else 0) +
      (if r.flags.stagedDiscarded then 4 else 0) ∧
    b 38 = (if r.staged.delay.isSome then 1 else 0) + (if r.staged.width.isSome then 2 else 0) +
      (if r.staged.period.isSome then 4 else 0) + (if r.heldTrigger.isSome then 8 else 0) ∧
    b 39 ++ b 40 ++ b 41 = r.staged.delay.getD 0 ∧ b 42 ++ b 43 ++ b 44 = r.staged.width.getD 0 ∧
    b 45 ++ b 46 ++ b 47 = r.staged.period.getD 0 ∧ b 48 ++ b 49 ++ b 50 ++ b 51 = r.heldTrigger.getD 0 ∧
    numbered 52 (r.predecessor.map Fin.val) ∧ numbered 53 (r.successor.map Fin.val) ∧
    b 54 = (if r.outcome = none then 0 else if r.outcome = some .completed then 1 else if r.outcome = some .drained then 2
      else if r.outcome = some .cancelled then 3 else if r.outcome = some .tripped then 4
      else if r.outcome = some .overrun then 5 else 6) ∧
    b 55 ++ b 56 ++ b 57 ++ b 58 = r.retiredAt.getD 0 ∧
    (r.PartsLawful → (r.retiredAt ≠ none ↔ b 54 ≠ 0)) ∧
    (r.PartsLawful → r.state = .free →
      ∀ n : Fin 59, 2 ≤ n.val → b n.val = if n.val = 3 ∨ n.val = 52 ∨ n.val = 53 then 0xFF else 0) ∧
    (r.PartsLawful → r'.PartsLawful → queryPayload i r = queryPayload i r' → r = r')

/-! ### The trigger, lane, strobe and trip requests -/

/-- TRIGGER_CONFIG and STROBE_CONFIG: their layout, PARAM_RANGE as their one refusal, and their effects: a line's configuration is
written, with its filter restarted where the divider or the depth changes; a strobe line's width is written (R162, R95, R96,
R112). -/
def Obligations.TriggerAndStrobeConfig : Prop :=
  ∀ (s : State) (tag l b1 b2 b3 : Byte), s.Steady →
    let trig := Instr.triggerConfig tag l b1 b2 b3
    let strobe := Instr.strobeConfig tag l b1
    requestOf 0x20 tag [l, b1, b2, b3] = some trig ∧ requestOf 0x2C tag [l, b1] = some strobe ∧
    (7 < l.toNat ∨ 3 < b1.toNat ∨ b2 = 0 ∨ 16 < b2.toNat ∨ b3 = 0 ∨ 15 < b3.toNat →
      exec trig s = .next (s.answered trig ⟨.paramRange, []⟩)) ∧
    (3 < l.toNat ∨ b1 = 0 → exec strobe s = .next (s.answered strobe ⟨.paramRange, []⟩)) ∧
    (∀ n : Fin 8, n.val = l.toNat → b1.toNat ≤ 3 → 1 ≤ b2.toNat → b2.toNat ≤ 16 → 1 ≤ b3.toNat → b3.toNat ≤ 15 →
      let old := s.line n
      let edge : EdgeSelect := if b1 = 0 then .none else if b1 = 1 then .rising else if b1 = 2 then .falling else .both
      let kept := old.sampleDivider = b2.toNat ∧ old.depth = b3.toNat
      exec trig s = .next ((s.setLine n { old with
        edge := edge
        sampleDivider := b2.toNat
        depth := b3.toNat
        sampleCount := if kept then old.sampleCount else 0
        accepted := if kept then old.accepted else none
        runLength := if kept then old.runLength else 0 }).answered trig ⟨.ok, []⟩)) ∧
    (∀ k : Fin 4, k.val = l.toNat → b1 ≠ 0 →
      exec strobe s = .next ((s.setStrobe k { s.strobe k with width := b1.toNat }).answered strobe ⟨.ok, []⟩))

/-- The lane requests: layout, checks in order and effects. LANE_CONFIG writes polarity and safe level unless the lane has an owner;
LANE_SET writes the forced level unless the lane is tripped or owned; LANE_QUERY reports the record in 9 bytes (R163, R104,
R105, R107). -/
def Obligations.LaneRequests : Prop :=
  ∀ (s : State) (tag l b1 b2 : Byte), s.Steady →
    let config := Instr.laneConfig tag l b1 b2
    let set := Instr.laneSet tag l b1
    let query := Instr.laneQuery tag l
    requestOf 0x28 tag [l, b1, b2] = some config ∧ requestOf 0x29 tag [l, b1] = some set ∧
    requestOf 0x2A tag [l] = some query ∧
    (15 < l.toNat ∨ 1 < b1.toNat ∨ 2 < b2.toNat → exec config s = .next (s.answered config ⟨.paramRange, []⟩)) ∧
    (15 < l.toNat ∨ 3 < b1.toNat → exec set s = .next (s.answered set ⟨.paramRange, []⟩)) ∧
    (15 < l.toNat → exec query s = .next (s.answered query ⟨.paramRange, []⟩)) ∧
    (∀ n : Fin 16, n.val = l.toNat →
      let r := s.lane n
      (b1.toNat ≤ 1 → b2.toNat ≤ 2 → exec config s = .next
        (if r.owner ≠ none then s.answered config ⟨.laneBusy, []⟩
        else (s.setLane n { r with
          polarity := if b1 = 0 then .activeHigh else .activeLow
          safeLevel := if b2 = 0 then .low else if b2 = 1 then .high else .float }).answered config ⟨.ok, []⟩)) ∧
      (b1.toNat ≤ 3 → exec set s = .next
        (if r.trippedBy ≠ TrippedBy.empty then s.answered set ⟨.laneTripped, []⟩
        else if r.owner ≠ none then s.answered set ⟨.laneBusy, []⟩
        else (s.setLane n { r with
          forced := if b1 = 0 then none else if b1 = 1 then some .active else if b1 = 2 then some .inactive
            else some .float }).answered set ⟨.ok, []⟩)) ∧
      ∃ t, exec query s = .next t ∧ t = s.setBuffer (.ready t.link.buffer.frame) ∧
        t.link.buffer.frame.take 12 = [0x00, tag, 0x09, l,
          if r.polarity = .activeHigh then 0 else 1,
          if r.safeLevel = .low then 0 else if r.safeLevel = .high then 1 else 2,
          (r.owner.map fun e => BitVec.ofNat 8 e.val).getD 0xFF,
          if r.call = .inactive then 0 else 1,
          (r.heir.map fun e => BitVec.ofNat 8 e.val).getD 0xFF,
          if r.forced = none then 0 else if r.forced = some .active then 1 else if r.forced = some .inactive then 2 else 3,
          (if r.trippedBy.a then 1 else 0) + (if r.trippedBy.b then 2 else 0) + (if r.trippedBy.soft then 4 else 0),
          if r.presentLevel = .low then 0 else if r.presentLevel = .high then 1 else 2] ∧
        t.link.buffer.frame.length = 13)

/-- The level of a lane's pin by the precedence of Table 6-2: a trip, then the owner, then the forced level, then idle (R98, R99). -/
def Obligations.LaneLevelsByPrecedence : Prop :=
  ∀ (s : State) (l : Fin 16), s.inReset = false →
    let r := s.lane l
    let active : PinLevel := if r.polarity = .activeHigh then .high else .low
    let idle : PinLevel := if r.polarity = .activeHigh then .low else .high
    (r.trippedBy ≠ TrippedBy.empty → s.lanePin l = r.safeLevel) ∧
    (r.trippedBy = TrippedBy.empty → r.owner ≠ none →
      s.lanePin l = if r.call = .active then active else idle) ∧
    (r.trippedBy = TrippedBy.empty → r.owner = none → s.lanePin l =
      if r.forced = some .active then active else if r.forced = some .float then .float else idle)

/-- TRIP_CONFIG, TRIP and CLEAR_TRIP: layout, checks in order, and the effects of TRIP_CONFIG on a QUIET source and of CLEAR_TRIP: a
LATCHED source becomes QUIET and leaves every lane's set, SOFT's group is emptied, a QUIET one is untouched (R164, R136, R137). -/
def Obligations.TripRequests : Prop :=
  ∀ (s : State) (tag src en al k g1 g0 : Byte), s.Steady →
    let config := Instr.tripConfig tag src en al k (ofBytes2 g1 g0)
    let trip := Instr.trip tag (ofBytes2 g1 g0)
    let clear := Instr.clearTrip tag src
    requestOf 0x30 tag [src, en, al, k, g1, g0] = some config ∧ requestOf 0x31 tag [g1, g0] = some trip ∧
    requestOf 0x32 tag [src] = some clear ∧
    (1 < src.toNat ∨ 1 < en.toNat ∨ 1 < al.toNat ∨ k = 0 ∨ 15 < k.toNat →
      exec config s = .next (s.answered config ⟨.paramRange, []⟩)) ∧
    (g1 = 0 → g0 = 0 → exec trip s = .next (s.answered trip ⟨.paramRange, []⟩)) ∧
    (¬ (g1 = 0 ∧ g0 = 0) → ∃ t, exec trip s = .next t ∧ t.link.buffer = .ready (frameOf 0x00 tag [])) ∧
    (2 < src.toNat → exec clear s = .next (s.answered clear ⟨.paramRange, []⟩)) ∧
    (∀ i ∈ [TripInput.a, TripInput.b], src = (if i = .a then 0 else 1) →
      let r := s.trip i
      (en.toNat ≤ 1 → al.toNat ≤ 1 → 1 ≤ k.toNat → k.toNat ≤ 15 →
        let level : Level := if al = 0 then .low else .high
        let kept := r.enabled = true ∧ en = 1 ∧ r.activeLevel = level ∧ r.depth = k.toNat
        exec config s = .next
          (if r.state ≠ .quiet then s.answered config ⟨.tripActive, []⟩
          else (s.setTrip i { r with
            enabled := decide (en = 1)
            activeLevel := level
            depth := k.toNat
            group := ofBytes2 g1 g0
            inputState := if kept then r.inputState else .inactive
            runLength := if kept then r.runLength else 0 }).answered config ⟨.ok, []⟩)) ∧
      (r.state = .held → exec clear s = .next (s.answered clear ⟨.tripActive, []⟩)) ∧
      (r.state = .quiet → exec clear s = .next (s.answered clear ⟨.ok, []⟩)) ∧
      (r.state = .latched → ∃ t, exec clear s = .next t ∧ t.trip i = { r with state := .quiet } ∧
        (∀ l : Fin 16, t.lane l = { s.lane l with trippedBy := (s.lane l).trippedBy.remove (tripIdOf i) }) ∧
        t.entries = s.entries ∧ t.due = s.due ∧ t.lines = s.lines ∧ t.strobes = s.strobes ∧ t.soft = s.soft ∧
        (if i = .a then t.tripB = s.tripB else t.tripA = s.tripA) ∧
        t.link.buffer = .ready (frameOf 0x00 tag []))) ∧
    (src = 2 →
      (s.soft.state = .held → exec clear s = .next (s.answered clear ⟨.tripActive, []⟩)) ∧
      (s.soft.state = .quiet → exec clear s = .next (s.answered clear ⟨.ok, []⟩)) ∧
      (s.soft.state = .latched → ∃ t, exec clear s = .next t ∧ t.soft = { group := 0, state := .quiet } ∧
        (∀ l : Fin 16, t.lane l = { s.lane l with trippedBy := (s.lane l).trippedBy.remove .soft }) ∧
        t.entries = s.entries ∧ t.due = s.due ∧ t.tripA = s.tripA ∧ t.tripB = s.tripB ∧
        t.link.buffer = .ready (frameOf 0x00 tag [])))

/-- TRIP makes SOFT LATCHED: the group given, or the lanes it adds to SOFT's group, are tripped, and a TRIP whose lanes are all in
SOFT's group changes nothing (R135, R131, R132). -/
def Obligations.TripTripsTheGroup : Prop :=
  ∀ (s : State) (tag : Byte) (g : LaneGroup), s.Steady → g ≠ 0 → s.soft.state ≠ .held →
    let c := Instr.trip tag g
    let before : LaneGroup := if s.soft.state = .quiet then 0 else s.soft.group
    ∃ t, exec c s = .next t ∧
      t.soft = { group := before ||| g, state := .latched } ∧ s.Tripped t .soft (g &&& ~~~before) ∧
      t.tripA = s.tripA ∧ t.tripB = s.tripB ∧ t.pins = s.pins ∧ t.attnLow = true ∧
      t.link = { s.link with buffer := .ready (frameOf 0x00 tag []), age := 0 } ∧
      (s.soft.state = .latched → g &&& ~~~s.soft.group = 0 → t = s.answered c ⟨.ok, []⟩)

/-! ### The link's own requests -/

/-- NOP, SUMMARY and SOFT_RESET carry no payload and are always accepted; the 20 bytes of SUMMARY hold the DONE entries, those with
`notify`, the number of FREE entries and the states of the trip sources, and ATTN_N is low exactly when they show a member of
the attention set (R165, R149, R150). -/
def Obligations.SummaryAgreesWithAttention : Prop :=
  ∀ (s : State) (tag : Byte), s.Steady →
    requestOf 0x00 tag [] = some (.nop tag) ∧ requestOf 0x19 tag [] = some (.summary tag) ∧
    requestOf 0x3F tag [] = some (.softReset tag) ∧
    (∃ t, exec (.nop tag) s = .next t ∧ t.link.buffer = .ready (frameOf 0x00 tag [])) ∧
    (∃ t, exec (.softReset tag) s = .next t ∧ t.link.buffer = .ready (frameOf 0x00 tag [])) ∧
    ∃ t, exec (.summary tag) s = .next t ∧ t = s.setBuffer (.ready t.link.buffer.frame) ∧
      (let frame := t.link.buffer.frame
       let byte := fun k : Nat => frame.getD (3 + k) 0
       let stateByte := fun st : TripState => if st = .quiet then (0 : Byte) else if st = .held then 1 else 2
       frame.length = 24 ∧ frame.take 3 = [0x00, tag, 20] ∧
       (∀ e : Fin 64, (byte (7 - e.val / 8)).getLsbD (e.val % 8) = decide ((s.entry e).state = .done)) ∧
       (∀ e : Fin 64, (byte (15 - e.val / 8)).getLsbD (e.val % 8) =
         decide ((s.entry e).state = .done ∧ (s.entry e).prog.notify = true)) ∧
       (byte 16).toNat = ((List.finRange 64).filter fun e => decide ((s.entry e).state = .free)).length ∧
       byte 17 = stateByte s.tripA.state ∧ byte 18 = stateByte s.tripB.state ∧ byte 19 = stateByte s.soft.state ∧
       (s.attnLow = true ↔ (∃ k : Fin 8, byte (8 + k.val) ≠ 0) ∨ byte 17 ≠ 0 ∨ byte 18 ≠ 0 ∨ byte 19 ≠ 0))

/-- SOFT_RESET frees every entry without an outcome, empties the due list and the subscription lists, and clears every claim and
forced level; the timebase, the configurations, the filters, the strobe lines, the trip sources and the `tripped-by` sets are
kept (R152, R3, R37, R80, R97, R108, R114, R138). -/
def Obligations.SoftResetFreesAndKeeps : Prop :=
  ∀ (s : State) (tag : Byte), s.Steady →
    ∃ t, exec (.softReset tag) s = .next t ∧
      (∀ e : Fin 64, t.entry e = Entry.free) ∧ t.due = [] ∧ t.dispatch = none ∧
      (∀ n : Fin 8, t.line n = { s.line n with subs := [] }) ∧
      (∀ l : Fin 16, t.lane l = { s.lane l with owner := none, heir := none, forced := none, call := .inactive }) ∧
      t.strobes = s.strobes ∧ s.SameTrips t ∧ s.SameTimebase t ∧ t.pins = s.pins ∧
      t.link = { s.link with buffer := .ready (frameOf 0x00 tag []), age := 0 } ∧
      (t.attnLow = true ↔ s.tripA.state ≠ .quiet ∨ s.tripB.state ≠ .quiet ∨ s.soft.state ≠ .quiet)

/-! ### The laws that every step keeps -/

/-- The part right after reset keeps every law: no event in progress, counts in range, no claim, no trip, no item, a closed link
(R3, R36, R80, R97, R108, R114, R138, R153; log entries 8 and 16 on the pins and the queue). -/
def Obligations.ResetKeepsTheLaws : Prop :=
  State.reset.Steady ∧ State.reset.InRange ∧ State.reset.LanesLawful ∧ State.reset.TripsLawful ∧
    State.reset.EntriesLawful ∧ State.reset.DueLawful ∧ State.reset.link.Lawful

/-- Every step keeps the ranges of the timebase, the trigger lines, the strobe lines and the trip filters (section 1.1, R12, R81,
R82, R95, R110, R112, R128, R137). -/
def Obligations.EveryStepKeepsTheRanges : Prop :=
  ∀ (s t : State), s.InRange → step s = .next t → t.InRange

/-- Every step keeps the law of lanes: a tripped lane has no owner, no heir and no forced level; an heir stands only behind an
owner and is another entry; an owned lane is not forced (R98, R99, R100, R101, R103, R131). -/
def Obligations.EveryStepKeepsTheLaneLaw : Prop :=
  ∀ (s t : State), s.LanesLawful → step s = .next t → t.LanesLawful

/-- Every step keeps the law of trip sources: a source holds exactly the lanes of its group while it is not QUIET, HELD goes with an
active input, SOFT is never HELD (R127, R129, R131, R133, R135, R136, R137). -/
def Obligations.EveryStepKeepsTheTripLaw : Prop :=
  ∀ (s t : State), s.TripsLawful → step s = .next t → t.TripsLawful

/-- Every step keeps the law of entry records: their optional parts are present only in the states that give them meaning, no
record holds an invalid programme, a run with a count has not reached it, and no entry is its own successor (R15, R18, R24, R30,
R44, R115). -/
def Obligations.EveryStepKeepsTheEntryLaws : Prop :=
  ∀ (s t : State), s.EntriesLawful → step s = .next t → t.EntriesLawful

/-- Every step keeps the law of the due list: exactly the entries that wait for a time have one item each, due at their next
instant, in the order of due instant and entry number, none more than 255 ticks late once its dispatch is over (R65, R66, R67,
R68, R69). -/
def Obligations.EveryStepKeepsTheDueLaw : Prop :=
  ∀ (s t : State), s.DueLawful → s.EntriesLawful → step s = .next t → t.DueLawful

/-- Every step keeps the law of the link: an ORDINARY transaction never meets an execution, and only an open one receives (R139,
R143, R145, R147, R153). That only an open one holds received bytes is read from Table 9-1 (log entry 24). -/
def Obligations.EveryStepKeepsTheLinkLaw : Prop :=
  ∀ (s t : State), s.link.Lawful → step s = .next t → t.link.Lawful

/-- While an entry is DONE, no command but ACK or RELEASE of it, SOFT_RESET and the resets of the part changes its record, but for
the two ends of a chain link, which a DONE entry does not carry (R29). -/
def Obligations.ADoneEntryKeepsItsRecord : Prop :=
  ∀ (s t : State) (c : Instr) (e : Fin 64), (s.entry e).state = .done → s.link.buffer.isWaiting = false →
    (∀ tag, c ≠ .softReset tag) → (∀ tag b, b.toNat = e.val → c ≠ .ack tag b ∧ c ≠ .release tag b) →
    c ≠ .powerOn → c ≠ .resetNAssert → c ≠ .resetNRelease → exec c s = .next t →
    t.entry e = { s.entry e with predecessor := (t.entry e).predecessor, successor := (t.entry e).successor }
end

