-- ==== Sys2Proof/Laws/State.lean ====
section
/-! SUPPORT. One lemma per field and per accessor for each update of the state, so that no later proof unfolds one. -/

namespace Sys2Proof.Machine

variable (s : State)


/-! ### setEntry -/

@[simp] theorem State.setEntry_pending (e : Fin 64) (r : Entry) : (s.setEntry e r).pending = s.pending := rfl
@[simp] theorem State.setEntry_pins (e : Fin 64) (r : Entry) : (s.setEntry e r).pins = s.pins := rfl
@[simp] theorem State.setEntry_now (e : Fin 64) (r : Entry) : (s.setEntry e r).now = s.now := rfl
@[simp] theorem State.setEntry_divider (e : Fin 64) (r : Entry) : (s.setEntry e r).divider = s.divider := rfl
@[simp] theorem State.setEntry_tickLength (e : Fin 64) (r : Entry) : (s.setEntry e r).tickLength = s.tickLength := rfl
@[simp] theorem State.setEntry_tickPhase (e : Fin 64) (r : Entry) : (s.setEntry e r).tickPhase = s.tickPhase := rfl
@[simp] theorem State.setEntry_entries (e : Fin 64) (r : Entry) : (s.setEntry e r).entries = s.entries.set e.val r := rfl
@[simp] theorem State.setEntry_due (e : Fin 64) (r : Entry) : (s.setEntry e r).due = s.due := rfl
@[simp] theorem State.setEntry_dispatch (e : Fin 64) (r : Entry) : (s.setEntry e r).dispatch = s.dispatch := rfl
@[simp] theorem State.setEntry_lines (e : Fin 64) (r : Entry) : (s.setEntry e r).lines = s.lines := rfl
@[simp] theorem State.setEntry_lanes (e : Fin 64) (r : Entry) : (s.setEntry e r).lanes = s.lanes := rfl
@[simp] theorem State.setEntry_strobes (e : Fin 64) (r : Entry) : (s.setEntry e r).strobes = s.strobes := rfl
@[simp] theorem State.setEntry_tripA (e : Fin 64) (r : Entry) : (s.setEntry e r).tripA = s.tripA := rfl
@[simp] theorem State.setEntry_tripB (e : Fin 64) (r : Entry) : (s.setEntry e r).tripB = s.tripB := rfl
@[simp] theorem State.setEntry_soft (e : Fin 64) (r : Entry) : (s.setEntry e r).soft = s.soft := rfl
@[simp] theorem State.setEntry_link (e : Fin 64) (r : Entry) : (s.setEntry e r).link = s.link := rfl
@[simp] theorem State.setEntry_clkEdges (e : Fin 64) (r : Entry) : (s.setEntry e r).clkEdges = s.clkEdges := rfl
@[simp] theorem State.setEntry_line (e : Fin 64) (r : Entry) (x : Fin 8) : (s.setEntry e r).line x = s.line x := rfl
@[simp] theorem State.setEntry_lane (e : Fin 64) (r : Entry) (x : Fin 16) : (s.setEntry e r).lane x = s.lane x := rfl
@[simp] theorem State.setEntry_strobe (e : Fin 64) (r : Entry) (x : Fin 4) : (s.setEntry e r).strobe x = s.strobe x := rfl
@[simp] theorem State.setEntry_trip (e : Fin 64) (r : Entry) (x : TripInput) : (s.setEntry e r).trip x = s.trip x := rfl
@[simp] theorem State.setEntry_inReset (e : Fin 64) (r : Entry) : (s.setEntry e r).inReset = s.inReset := rfl

/-! ### setLine -/

@[simp] theorem State.setLine_pending (n : Fin 8) (r : TriggerLine) : (s.setLine n r).pending = s.pending := rfl
@[simp] theorem State.setLine_pins (n : Fin 8) (r : TriggerLine) : (s.setLine n r).pins = s.pins := rfl
@[simp] theorem State.setLine_now (n : Fin 8) (r : TriggerLine) : (s.setLine n r).now = s.now := rfl
@[simp] theorem State.setLine_divider (n : Fin 8) (r : TriggerLine) : (s.setLine n r).divider = s.divider := rfl
@[simp] theorem State.setLine_tickLength (n : Fin 8) (r : TriggerLine) : (s.setLine n r).tickLength = s.tickLength := rfl
@[simp] theorem State.setLine_tickPhase (n : Fin 8) (r : TriggerLine) : (s.setLine n r).tickPhase = s.tickPhase := rfl
@[simp] theorem State.setLine_entries (n : Fin 8) (r : TriggerLine) : (s.setLine n r).entries = s.entries := rfl
@[simp] theorem State.setLine_due (n : Fin 8) (r : TriggerLine) : (s.setLine n r).due = s.due := rfl
@[simp] theorem State.setLine_dispatch (n : Fin 8) (r : TriggerLine) : (s.setLine n r).dispatch = s.dispatch := rfl
@[simp] theorem State.setLine_lines (n : Fin 8) (r : TriggerLine) : (s.setLine n r).lines = s.lines.set n.val r := rfl
@[simp] theorem State.setLine_lanes (n : Fin 8) (r : TriggerLine) : (s.setLine n r).lanes = s.lanes := rfl
@[simp] theorem State.setLine_strobes (n : Fin 8) (r : TriggerLine) : (s.setLine n r).strobes = s.strobes := rfl
@[simp] theorem State.setLine_tripA (n : Fin 8) (r : TriggerLine) : (s.setLine n r).tripA = s.tripA := rfl
@[simp] theorem State.setLine_tripB (n : Fin 8) (r : TriggerLine) : (s.setLine n r).tripB = s.tripB := rfl
@[simp] theorem State.setLine_soft (n : Fin 8) (r : TriggerLine) : (s.setLine n r).soft = s.soft := rfl
@[simp] theorem State.setLine_link (n : Fin 8) (r : TriggerLine) : (s.setLine n r).link = s.link := rfl
@[simp] theorem State.setLine_clkEdges (n : Fin 8) (r : TriggerLine) : (s.setLine n r).clkEdges = s.clkEdges := rfl
@[simp] theorem State.setLine_entry (n : Fin 8) (r : TriggerLine) (x : Fin 64) : (s.setLine n r).entry x = s.entry x := rfl
@[simp] theorem State.setLine_lane (n : Fin 8) (r : TriggerLine) (x : Fin 16) : (s.setLine n r).lane x = s.lane x := rfl
@[simp] theorem State.setLine_strobe (n : Fin 8) (r : TriggerLine) (x : Fin 4) : (s.setLine n r).strobe x = s.strobe x := rfl
@[simp] theorem State.setLine_trip (n : Fin 8) (r : TriggerLine) (x : TripInput) : (s.setLine n r).trip x = s.trip x := rfl
@[simp] theorem State.setLine_inReset (n : Fin 8) (r : TriggerLine) : (s.setLine n r).inReset = s.inReset := rfl

/-! ### setLane -/

@[simp] theorem State.setLane_pending (l : Fin 16) (r : Lane) : (s.setLane l r).pending = s.pending := rfl
@[simp] theorem State.setLane_pins (l : Fin 16) (r : Lane) : (s.setLane l r).pins = s.pins := rfl
@[simp] theorem State.setLane_now (l : Fin 16) (r : Lane) : (s.setLane l r).now = s.now := rfl
@[simp] theorem State.setLane_divider (l : Fin 16) (r : Lane) : (s.setLane l r).divider = s.divider := rfl
@[simp] theorem State.setLane_tickLength (l : Fin 16) (r : Lane) : (s.setLane l r).tickLength = s.tickLength := rfl
@[simp] theorem State.setLane_tickPhase (l : Fin 16) (r : Lane) : (s.setLane l r).tickPhase = s.tickPhase := rfl
@[simp] theorem State.setLane_entries (l : Fin 16) (r : Lane) : (s.setLane l r).entries = s.entries := rfl
@[simp] theorem State.setLane_due (l : Fin 16) (r : Lane) : (s.setLane l r).due = s.due := rfl
@[simp] theorem State.setLane_dispatch (l : Fin 16) (r : Lane) : (s.setLane l r).dispatch = s.dispatch := rfl
@[simp] theorem State.setLane_lines (l : Fin 16) (r : Lane) : (s.setLane l r).lines = s.lines := rfl
@[simp] theorem State.setLane_lanes (l : Fin 16) (r : Lane) : (s.setLane l r).lanes = s.lanes.set l.val r := rfl
@[simp] theorem State.setLane_strobes (l : Fin 16) (r : Lane) : (s.setLane l r).strobes = s.strobes := rfl
@[simp] theorem State.setLane_tripA (l : Fin 16) (r : Lane) : (s.setLane l r).tripA = s.tripA := rfl
@[simp] theorem State.setLane_tripB (l : Fin 16) (r : Lane) : (s.setLane l r).tripB = s.tripB := rfl
@[simp] theorem State.setLane_soft (l : Fin 16) (r : Lane) : (s.setLane l r).soft = s.soft := rfl
@[simp] theorem State.setLane_link (l : Fin 16) (r : Lane) : (s.setLane l r).link = s.link := rfl
@[simp] theorem State.setLane_clkEdges (l : Fin 16) (r : Lane) : (s.setLane l r).clkEdges = s.clkEdges := rfl
@[simp] theorem State.setLane_entry (l : Fin 16) (r : Lane) (x : Fin 64) : (s.setLane l r).entry x = s.entry x := rfl
@[simp] theorem State.setLane_line (l : Fin 16) (r : Lane) (x : Fin 8) : (s.setLane l r).line x = s.line x := rfl
@[simp] theorem State.setLane_strobe (l : Fin 16) (r : Lane) (x : Fin 4) : (s.setLane l r).strobe x = s.strobe x := rfl
@[simp] theorem State.setLane_trip (l : Fin 16) (r : Lane) (x : TripInput) : (s.setLane l r).trip x = s.trip x := rfl
@[simp] theorem State.setLane_inReset (l : Fin 16) (r : Lane) : (s.setLane l r).inReset = s.inReset := rfl

/-! ### setStrobe -/

@[simp] theorem State.setStrobe_pending (k : Fin 4) (r : StrobeLine) : (s.setStrobe k r).pending = s.pending := rfl
@[simp] theorem State.setStrobe_pins (k : Fin 4) (r : StrobeLine) : (s.setStrobe k r).pins = s.pins := rfl
@[simp] theorem State.setStrobe_now (k : Fin 4) (r : StrobeLine) : (s.setStrobe k r).now = s.now := rfl
@[simp] theorem State.setStrobe_divider (k : Fin 4) (r : StrobeLine) : (s.setStrobe k r).divider = s.divider := rfl
@[simp] theorem State.setStrobe_tickLength (k : Fin 4) (r : StrobeLine) : (s.setStrobe k r).tickLength = s.tickLength := rfl
@[simp] theorem State.setStrobe_tickPhase (k : Fin 4) (r : StrobeLine) : (s.setStrobe k r).tickPhase = s.tickPhase := rfl
@[simp] theorem State.setStrobe_entries (k : Fin 4) (r : StrobeLine) : (s.setStrobe k r).entries = s.entries := rfl
@[simp] theorem State.setStrobe_due (k : Fin 4) (r : StrobeLine) : (s.setStrobe k r).due = s.due := rfl
@[simp] theorem State.setStrobe_dispatch (k : Fin 4) (r : StrobeLine) : (s.setStrobe k r).dispatch = s.dispatch := rfl
@[simp] theorem State.setStrobe_lines (k : Fin 4) (r : StrobeLine) : (s.setStrobe k r).lines = s.lines := rfl
@[simp] theorem State.setStrobe_lanes (k : Fin 4) (r : StrobeLine) : (s.setStrobe k r).lanes = s.lanes := rfl
@[simp] theorem State.setStrobe_strobes (k : Fin 4) (r : StrobeLine) : (s.setStrobe k r).strobes = s.strobes.set k.val r := rfl
@[simp] theorem State.setStrobe_tripA (k : Fin 4) (r : StrobeLine) : (s.setStrobe k r).tripA = s.tripA := rfl
@[simp] theorem State.setStrobe_tripB (k : Fin 4) (r : StrobeLine) : (s.setStrobe k r).tripB = s.tripB := rfl
@[simp] theorem State.setStrobe_soft (k : Fin 4) (r : StrobeLine) : (s.setStrobe k r).soft = s.soft := rfl
@[simp] theorem State.setStrobe_link (k : Fin 4) (r : StrobeLine) : (s.setStrobe k r).link = s.link := rfl
@[simp] theorem State.setStrobe_clkEdges (k : Fin 4) (r : StrobeLine) : (s.setStrobe k r).clkEdges = s.clkEdges := rfl
@[simp] theorem State.setStrobe_entry (k : Fin 4) (r : StrobeLine) (x : Fin 64) : (s.setStrobe k r).entry x = s.entry x := rfl
@[simp] theorem State.setStrobe_line (k : Fin 4) (r : StrobeLine) (x : Fin 8) : (s.setStrobe k r).line x = s.line x := rfl
@[simp] theorem State.setStrobe_lane (k : Fin 4) (r : StrobeLine) (x : Fin 16) : (s.setStrobe k r).lane x = s.lane x := rfl
@[simp] theorem State.setStrobe_trip (k : Fin 4) (r : StrobeLine) (x : TripInput) : (s.setStrobe k r).trip x = s.trip x := rfl
@[simp] theorem State.setStrobe_inReset (k : Fin 4) (r : StrobeLine) : (s.setStrobe k r).inReset = s.inReset := rfl

/-! ### setTrip -/

@[simp] theorem State.setTrip_pending (i : TripInput) (r : TripSource) : (s.setTrip i r).pending = s.pending := by cases i <;> rfl
@[simp] theorem State.setTrip_pins (i : TripInput) (r : TripSource) : (s.setTrip i r).pins = s.pins := by cases i <;> rfl
@[simp] theorem State.setTrip_now (i : TripInput) (r : TripSource) : (s.setTrip i r).now = s.now := by cases i <;> rfl
@[simp] theorem State.setTrip_divider (i : TripInput) (r : TripSource) : (s.setTrip i r).divider = s.divider := by cases i <;> rfl
@[simp] theorem State.setTrip_tickLength (i : TripInput) (r : TripSource) : (s.setTrip i r).tickLength = s.tickLength := by cases i <;> rfl
@[simp] theorem State.setTrip_tickPhase (i : TripInput) (r : TripSource) : (s.setTrip i r).tickPhase = s.tickPhase := by cases i <;> rfl
@[simp] theorem State.setTrip_entries (i : TripInput) (r : TripSource) : (s.setTrip i r).entries = s.entries := by cases i <;> rfl
@[simp] theorem State.setTrip_due (i : TripInput) (r : TripSource) : (s.setTrip i r).due = s.due := by cases i <;> rfl
@[simp] theorem State.setTrip_dispatch (i : TripInput) (r : TripSource) : (s.setTrip i r).dispatch = s.dispatch := by cases i <;> rfl
@[simp] theorem State.setTrip_lines (i : TripInput) (r : TripSource) : (s.setTrip i r).lines = s.lines := by cases i <;> rfl
@[simp] theorem State.setTrip_lanes (i : TripInput) (r : TripSource) : (s.setTrip i r).lanes = s.lanes := by cases i <;> rfl
@[simp] theorem State.setTrip_strobes (i : TripInput) (r : TripSource) : (s.setTrip i r).strobes = s.strobes := by cases i <;> rfl
@[simp] theorem State.setTrip_soft (i : TripInput) (r : TripSource) : (s.setTrip i r).soft = s.soft := by cases i <;> rfl
@[simp] theorem State.setTrip_link (i : TripInput) (r : TripSource) : (s.setTrip i r).link = s.link := by cases i <;> rfl
@[simp] theorem State.setTrip_clkEdges (i : TripInput) (r : TripSource) : (s.setTrip i r).clkEdges = s.clkEdges := by cases i <;> rfl
@[simp] theorem State.setTrip_entry (i : TripInput) (r : TripSource) (x : Fin 64) : (s.setTrip i r).entry x = s.entry x := by cases i <;> rfl
@[simp] theorem State.setTrip_line (i : TripInput) (r : TripSource) (x : Fin 8) : (s.setTrip i r).line x = s.line x := by cases i <;> rfl
@[simp] theorem State.setTrip_lane (i : TripInput) (r : TripSource) (x : Fin 16) : (s.setTrip i r).lane x = s.lane x := by cases i <;> rfl
@[simp] theorem State.setTrip_strobe (i : TripInput) (r : TripSource) (x : Fin 4) : (s.setTrip i r).strobe x = s.strobe x := by cases i <;> rfl
@[simp] theorem State.setTrip_inReset (i : TripInput) (r : TripSource) : (s.setTrip i r).inReset = s.inReset := by cases i <;> rfl

/-! ### setSoft -/

@[simp] theorem State.setSoft_pending (r : SoftSource) : (s.setSoft r).pending = s.pending := rfl
@[simp] theorem State.setSoft_pins (r : SoftSource) : (s.setSoft r).pins = s.pins := rfl
@[simp] theorem State.setSoft_now (r : SoftSource) : (s.setSoft r).now = s.now := rfl
@[simp] theorem State.setSoft_divider (r : SoftSource) : (s.setSoft r).divider = s.divider := rfl
@[simp] theorem State.setSoft_tickLength (r : SoftSource) : (s.setSoft r).tickLength = s.tickLength := rfl
@[simp] theorem State.setSoft_tickPhase (r : SoftSource) : (s.setSoft r).tickPhase = s.tickPhase := rfl
@[simp] theorem State.setSoft_entries (r : SoftSource) : (s.setSoft r).entries = s.entries := rfl
@[simp] theorem State.setSoft_due (r : SoftSource) : (s.setSoft r).due = s.due := rfl
@[simp] theorem State.setSoft_dispatch (r : SoftSource) : (s.setSoft r).dispatch = s.dispatch := rfl
@[simp] theorem State.setSoft_lines (r : SoftSource) : (s.setSoft r).lines = s.lines := rfl
@[simp] theorem State.setSoft_lanes (r : SoftSource) : (s.setSoft r).lanes = s.lanes := rfl
@[simp] theorem State.setSoft_strobes (r : SoftSource) : (s.setSoft r).strobes = s.strobes := rfl
@[simp] theorem State.setSoft_tripA (r : SoftSource) : (s.setSoft r).tripA = s.tripA := rfl
@[simp] theorem State.setSoft_tripB (r : SoftSource) : (s.setSoft r).tripB = s.tripB := rfl
@[simp] theorem State.setSoft_soft (r : SoftSource) : (s.setSoft r).soft = r := rfl
@[simp] theorem State.setSoft_link (r : SoftSource) : (s.setSoft r).link = s.link := rfl
@[simp] theorem State.setSoft_clkEdges (r : SoftSource) : (s.setSoft r).clkEdges = s.clkEdges := rfl
@[simp] theorem State.setSoft_entry (r : SoftSource) (x : Fin 64) : (s.setSoft r).entry x = s.entry x := rfl
@[simp] theorem State.setSoft_line (r : SoftSource) (x : Fin 8) : (s.setSoft r).line x = s.line x := rfl
@[simp] theorem State.setSoft_lane (r : SoftSource) (x : Fin 16) : (s.setSoft r).lane x = s.lane x := rfl
@[simp] theorem State.setSoft_strobe (r : SoftSource) (x : Fin 4) : (s.setSoft r).strobe x = s.strobe x := rfl
@[simp] theorem State.setSoft_trip (r : SoftSource) (x : TripInput) : (s.setSoft r).trip x = s.trip x := rfl
@[simp] theorem State.setSoft_inReset (r : SoftSource) : (s.setSoft r).inReset = s.inReset := rfl

/-! ### setDue -/

@[simp] theorem State.setDue_pending (d : List DueItem) : (s.setDue d).pending = s.pending := rfl
@[simp] theorem State.setDue_pins (d : List DueItem) : (s.setDue d).pins = s.pins := rfl
@[simp] theorem State.setDue_now (d : List DueItem) : (s.setDue d).now = s.now := rfl
@[simp] theorem State.setDue_divider (d : List DueItem) : (s.setDue d).divider = s.divider := rfl
@[simp] theorem State.setDue_tickLength (d : List DueItem) : (s.setDue d).tickLength = s.tickLength := rfl
@[simp] theorem State.setDue_tickPhase (d : List DueItem) : (s.setDue d).tickPhase = s.tickPhase := rfl
@[simp] theorem State.setDue_entries (d : List DueItem) : (s.setDue d).entries = s.entries := rfl
@[simp] theorem State.setDue_due (d : List DueItem) : (s.setDue d).due = d := rfl
@[simp] theorem State.setDue_dispatch (d : List DueItem) : (s.setDue d).dispatch = s.dispatch := rfl
@[simp] theorem State.setDue_lines (d : List DueItem) : (s.setDue d).lines = s.lines := rfl
@[simp] theorem State.setDue_lanes (d : List DueItem) : (s.setDue d).lanes = s.lanes := rfl
@[simp] theorem State.setDue_strobes (d : List DueItem) : (s.setDue d).strobes = s.strobes := rfl
@[simp] theorem State.setDue_tripA (d : List DueItem) : (s.setDue d).tripA = s.tripA := rfl
@[simp] theorem State.setDue_tripB (d : List DueItem) : (s.setDue d).tripB = s.tripB := rfl
@[simp] theorem State.setDue_soft (d : List DueItem) : (s.setDue d).soft = s.soft := rfl
@[simp] theorem State.setDue_link (d : List DueItem) : (s.setDue d).link = s.link := rfl
@[simp] theorem State.setDue_clkEdges (d : List DueItem) : (s.setDue d).clkEdges = s.clkEdges := rfl
@[simp] theorem State.setDue_entry (d : List DueItem) (x : Fin 64) : (s.setDue d).entry x = s.entry x := rfl
@[simp] theorem State.setDue_line (d : List DueItem) (x : Fin 8) : (s.setDue d).line x = s.line x := rfl
@[simp] theorem State.setDue_lane (d : List DueItem) (x : Fin 16) : (s.setDue d).lane x = s.lane x := rfl
@[simp] theorem State.setDue_strobe (d : List DueItem) (x : Fin 4) : (s.setDue d).strobe x = s.strobe x := rfl
@[simp] theorem State.setDue_trip (d : List DueItem) (x : TripInput) : (s.setDue d).trip x = s.trip x := rfl
@[simp] theorem State.setDue_inReset (d : List DueItem) : (s.setDue d).inReset = s.inReset := rfl

/-! ### setDispatch -/

@[simp] theorem State.setDispatch_pending (d : Option DispatchWork) : (s.setDispatch d).pending = s.pending := rfl
@[simp] theorem State.setDispatch_pins (d : Option DispatchWork) : (s.setDispatch d).pins = s.pins := rfl
@[simp] theorem State.setDispatch_now (d : Option DispatchWork) : (s.setDispatch d).now = s.now := rfl
@[simp] theorem State.setDispatch_divider (d : Option DispatchWork) : (s.setDispatch d).divider = s.divider := rfl
@[simp] theorem State.setDispatch_tickLength (d : Option DispatchWork) : (s.setDispatch d).tickLength = s.tickLength := rfl
@[simp] theorem State.setDispatch_tickPhase (d : Option DispatchWork) : (s.setDispatch d).tickPhase = s.tickPhase := rfl
@[simp] theorem State.setDispatch_entries (d : Option DispatchWork) : (s.setDispatch d).entries = s.entries := rfl
@[simp] theorem State.setDispatch_due (d : Option DispatchWork) : (s.setDispatch d).due = s.due := rfl
@[simp] theorem State.setDispatch_dispatch (d : Option DispatchWork) : (s.setDispatch d).dispatch = d := rfl
@[simp] theorem State.setDispatch_lines (d : Option DispatchWork) : (s.setDispatch d).lines = s.lines := rfl
@[simp] theorem State.setDispatch_lanes (d : Option DispatchWork) : (s.setDispatch d).lanes = s.lanes := rfl
@[simp] theorem State.setDispatch_strobes (d : Option DispatchWork) : (s.setDispatch d).strobes = s.strobes := rfl
@[simp] theorem State.setDispatch_tripA (d : Option DispatchWork) : (s.setDispatch d).tripA = s.tripA := rfl
@[simp] theorem State.setDispatch_tripB (d : Option DispatchWork) : (s.setDispatch d).tripB = s.tripB := rfl
@[simp] theorem State.setDispatch_soft (d : Option DispatchWork) : (s.setDispatch d).soft = s.soft := rfl
@[simp] theorem State.setDispatch_link (d : Option DispatchWork) : (s.setDispatch d).link = s.link := rfl
@[simp] theorem State.setDispatch_clkEdges (d : Option DispatchWork) : (s.setDispatch d).clkEdges = s.clkEdges := rfl
@[simp] theorem State.setDispatch_entry (d : Option DispatchWork) (x : Fin 64) : (s.setDispatch d).entry x = s.entry x := rfl
@[simp] theorem State.setDispatch_line (d : Option DispatchWork) (x : Fin 8) : (s.setDispatch d).line x = s.line x := rfl
@[simp] theorem State.setDispatch_lane (d : Option DispatchWork) (x : Fin 16) : (s.setDispatch d).lane x = s.lane x := rfl
@[simp] theorem State.setDispatch_strobe (d : Option DispatchWork) (x : Fin 4) : (s.setDispatch d).strobe x = s.strobe x := rfl
@[simp] theorem State.setDispatch_trip (d : Option DispatchWork) (x : TripInput) : (s.setDispatch d).trip x = s.trip x := rfl
@[simp] theorem State.setDispatch_inReset (d : Option DispatchWork) : (s.setDispatch d).inReset = s.inReset := rfl

/-! ### setLink -/

@[simp] theorem State.setLink_pending (l : Link) : (s.setLink l).pending = s.pending := rfl
@[simp] theorem State.setLink_pins (l : Link) : (s.setLink l).pins = s.pins := rfl
@[simp] theorem State.setLink_now (l : Link) : (s.setLink l).now = s.now := rfl
@[simp] theorem State.setLink_divider (l : Link) : (s.setLink l).divider = s.divider := rfl
@[simp] theorem State.setLink_tickLength (l : Link) : (s.setLink l).tickLength = s.tickLength := rfl
@[simp] theorem State.setLink_tickPhase (l : Link) : (s.setLink l).tickPhase = s.tickPhase := rfl
@[simp] theorem State.setLink_entries (l : Link) : (s.setLink l).entries = s.entries := rfl
@[simp] theorem State.setLink_due (l : Link) : (s.setLink l).due = s.due := rfl
@[simp] theorem State.setLink_dispatch (l : Link) : (s.setLink l).dispatch = s.dispatch := rfl
@[simp] theorem State.setLink_lines (l : Link) : (s.setLink l).lines = s.lines := rfl
@[simp] theorem State.setLink_lanes (l : Link) : (s.setLink l).lanes = s.lanes := rfl
@[simp] theorem State.setLink_strobes (l : Link) : (s.setLink l).strobes = s.strobes := rfl
@[simp] theorem State.setLink_tripA (l : Link) : (s.setLink l).tripA = s.tripA := rfl
@[simp] theorem State.setLink_tripB (l : Link) : (s.setLink l).tripB = s.tripB := rfl
@[simp] theorem State.setLink_soft (l : Link) : (s.setLink l).soft = s.soft := rfl
@[simp] theorem State.setLink_link (l : Link) : (s.setLink l).link = l := rfl
@[simp] theorem State.setLink_clkEdges (l : Link) : (s.setLink l).clkEdges = s.clkEdges := rfl
@[simp] theorem State.setLink_entry (l : Link) (x : Fin 64) : (s.setLink l).entry x = s.entry x := rfl
@[simp] theorem State.setLink_line (l : Link) (x : Fin 8) : (s.setLink l).line x = s.line x := rfl
@[simp] theorem State.setLink_lane (l : Link) (x : Fin 16) : (s.setLink l).lane x = s.lane x := rfl
@[simp] theorem State.setLink_strobe (l : Link) (x : Fin 4) : (s.setLink l).strobe x = s.strobe x := rfl
@[simp] theorem State.setLink_trip (l : Link) (x : TripInput) : (s.setLink l).trip x = s.trip x := rfl
@[simp] theorem State.setLink_inReset (l : Link) : (s.setLink l).inReset = s.inReset := rfl

/-! ### setBuffer -/

@[simp] theorem State.setBuffer_pending (b : Buffer) : (s.setBuffer b).pending = s.pending := rfl
@[simp] theorem State.setBuffer_pins (b : Buffer) : (s.setBuffer b).pins = s.pins := rfl
@[simp] theorem State.setBuffer_now (b : Buffer) : (s.setBuffer b).now = s.now := rfl
@[simp] theorem State.setBuffer_divider (b : Buffer) : (s.setBuffer b).divider = s.divider := rfl
@[simp] theorem State.setBuffer_tickLength (b : Buffer) : (s.setBuffer b).tickLength = s.tickLength := rfl
@[simp] theorem State.setBuffer_tickPhase (b : Buffer) : (s.setBuffer b).tickPhase = s.tickPhase := rfl
@[simp] theorem State.setBuffer_entries (b : Buffer) : (s.setBuffer b).entries = s.entries := rfl
@[simp] theorem State.setBuffer_due (b : Buffer) : (s.setBuffer b).due = s.due := rfl
@[simp] theorem State.setBuffer_dispatch (b : Buffer) : (s.setBuffer b).dispatch = s.dispatch := rfl
@[simp] theorem State.setBuffer_lines (b : Buffer) : (s.setBuffer b).lines = s.lines := rfl
@[simp] theorem State.setBuffer_lanes (b : Buffer) : (s.setBuffer b).lanes = s.lanes := rfl
@[simp] theorem State.setBuffer_strobes (b : Buffer) : (s.setBuffer b).strobes = s.strobes := rfl
@[simp] theorem State.setBuffer_tripA (b : Buffer) : (s.setBuffer b).tripA = s.tripA := rfl
@[simp] theorem State.setBuffer_tripB (b : Buffer) : (s.setBuffer b).tripB = s.tripB := rfl
@[simp] theorem State.setBuffer_soft (b : Buffer) : (s.setBuffer b).soft = s.soft := rfl
@[simp] theorem State.setBuffer_link (b : Buffer) : (s.setBuffer b).link = { s.link with buffer := b, age := 0 } := rfl
@[simp] theorem State.setBuffer_clkEdges (b : Buffer) : (s.setBuffer b).clkEdges = s.clkEdges := rfl
@[simp] theorem State.setBuffer_entry (b : Buffer) (x : Fin 64) : (s.setBuffer b).entry x = s.entry x := rfl
@[simp] theorem State.setBuffer_line (b : Buffer) (x : Fin 8) : (s.setBuffer b).line x = s.line x := rfl
@[simp] theorem State.setBuffer_lane (b : Buffer) (x : Fin 16) : (s.setBuffer b).lane x = s.lane x := rfl
@[simp] theorem State.setBuffer_strobe (b : Buffer) (x : Fin 4) : (s.setBuffer b).strobe x = s.strobe x := rfl
@[simp] theorem State.setBuffer_trip (b : Buffer) (x : TripInput) : (s.setBuffer b).trip x = s.trip x := rfl
@[simp] theorem State.setBuffer_inReset (b : Buffer) : (s.setBuffer b).inReset = s.inReset := rfl

/-! ### setPins -/

@[simp] theorem State.setPins_pending (p : Pins) : (s.setPins p).pending = s.pending := rfl
@[simp] theorem State.setPins_pins (p : Pins) : (s.setPins p).pins = p := rfl
@[simp] theorem State.setPins_now (p : Pins) : (s.setPins p).now = s.now := rfl
@[simp] theorem State.setPins_divider (p : Pins) : (s.setPins p).divider = s.divider := rfl
@[simp] theorem State.setPins_tickLength (p : Pins) : (s.setPins p).tickLength = s.tickLength := rfl
@[simp] theorem State.setPins_tickPhase (p : Pins) : (s.setPins p).tickPhase = s.tickPhase := rfl
@[simp] theorem State.setPins_entries (p : Pins) : (s.setPins p).entries = s.entries := rfl
@[simp] theorem State.setPins_due (p : Pins) : (s.setPins p).due = s.due := rfl
@[simp] theorem State.setPins_dispatch (p : Pins) : (s.setPins p).dispatch = s.dispatch := rfl
@[simp] theorem State.setPins_lines (p : Pins) : (s.setPins p).lines = s.lines := rfl
@[simp] theorem State.setPins_lanes (p : Pins) : (s.setPins p).lanes = s.lanes := rfl
@[simp] theorem State.setPins_strobes (p : Pins) : (s.setPins p).strobes = s.strobes := rfl
@[simp] theorem State.setPins_tripA (p : Pins) : (s.setPins p).tripA = s.tripA := rfl
@[simp] theorem State.setPins_tripB (p : Pins) : (s.setPins p).tripB = s.tripB := rfl
@[simp] theorem State.setPins_soft (p : Pins) : (s.setPins p).soft = s.soft := rfl
@[simp] theorem State.setPins_link (p : Pins) : (s.setPins p).link = s.link := rfl
@[simp] theorem State.setPins_clkEdges (p : Pins) : (s.setPins p).clkEdges = s.clkEdges := rfl
@[simp] theorem State.setPins_entry (p : Pins) (x : Fin 64) : (s.setPins p).entry x = s.entry x := rfl
@[simp] theorem State.setPins_line (p : Pins) (x : Fin 8) : (s.setPins p).line x = s.line x := rfl
@[simp] theorem State.setPins_lane (p : Pins) (x : Fin 16) : (s.setPins p).lane x = s.lane x := rfl
@[simp] theorem State.setPins_strobe (p : Pins) (x : Fin 4) : (s.setPins p).strobe x = s.strobe x := rfl
@[simp] theorem State.setPins_trip (p : Pins) (x : TripInput) : (s.setPins p).trip x = s.trip x := rfl

/-! ### withPending -/

@[simp] theorem State.withPending_pending (q : List Instr) : (s.withPending q).pending = q := rfl
@[simp] theorem State.withPending_pins (q : List Instr) : (s.withPending q).pins = s.pins := rfl
@[simp] theorem State.withPending_now (q : List Instr) : (s.withPending q).now = s.now := rfl
@[simp] theorem State.withPending_divider (q : List Instr) : (s.withPending q).divider = s.divider := rfl
@[simp] theorem State.withPending_tickLength (q : List Instr) : (s.withPending q).tickLength = s.tickLength := rfl
@[simp] theorem State.withPending_tickPhase (q : List Instr) : (s.withPending q).tickPhase = s.tickPhase := rfl
@[simp] theorem State.withPending_entries (q : List Instr) : (s.withPending q).entries = s.entries := rfl
@[simp] theorem State.withPending_due (q : List Instr) : (s.withPending q).due = s.due := rfl
@[simp] theorem State.withPending_dispatch (q : List Instr) : (s.withPending q).dispatch = s.dispatch := rfl
@[simp] theorem State.withPending_lines (q : List Instr) : (s.withPending q).lines = s.lines := rfl
@[simp] theorem State.withPending_lanes (q : List Instr) : (s.withPending q).lanes = s.lanes := rfl
@[simp] theorem State.withPending_strobes (q : List Instr) : (s.withPending q).strobes = s.strobes := rfl
@[simp] theorem State.withPending_tripA (q : List Instr) : (s.withPending q).tripA = s.tripA := rfl
@[simp] theorem State.withPending_tripB (q : List Instr) : (s.withPending q).tripB = s.tripB := rfl
@[simp] theorem State.withPending_soft (q : List Instr) : (s.withPending q).soft = s.soft := rfl
@[simp] theorem State.withPending_link (q : List Instr) : (s.withPending q).link = s.link := rfl
@[simp] theorem State.withPending_clkEdges (q : List Instr) : (s.withPending q).clkEdges = s.clkEdges := rfl
@[simp] theorem State.withPending_entry (q : List Instr) (x : Fin 64) : (s.withPending q).entry x = s.entry x := rfl
@[simp] theorem State.withPending_line (q : List Instr) (x : Fin 8) : (s.withPending q).line x = s.line x := rfl
@[simp] theorem State.withPending_lane (q : List Instr) (x : Fin 16) : (s.withPending q).lane x = s.lane x := rfl
@[simp] theorem State.withPending_strobe (q : List Instr) (x : Fin 4) : (s.withPending q).strobe x = s.strobe x := rfl
@[simp] theorem State.withPending_trip (q : List Instr) (x : TripInput) : (s.withPending q).trip x = s.trip x := rfl
@[simp] theorem State.withPending_inReset (q : List Instr) : (s.withPending q).inReset = s.inReset := rfl

/-! ### recordDivider -/

@[simp] theorem State.recordDivider_pending (m : Nat) : (s.recordDivider m).pending = s.pending := rfl
@[simp] theorem State.recordDivider_pins (m : Nat) : (s.recordDivider m).pins = s.pins := rfl
@[simp] theorem State.recordDivider_now (m : Nat) : (s.recordDivider m).now = s.now := rfl
@[simp] theorem State.recordDivider_divider (m : Nat) : (s.recordDivider m).divider = m := rfl
@[simp] theorem State.recordDivider_tickLength (m : Nat) : (s.recordDivider m).tickLength = s.tickLength := rfl
@[simp] theorem State.recordDivider_tickPhase (m : Nat) : (s.recordDivider m).tickPhase = s.tickPhase := rfl
@[simp] theorem State.recordDivider_entries (m : Nat) : (s.recordDivider m).entries = s.entries := rfl
@[simp] theorem State.recordDivider_due (m : Nat) : (s.recordDivider m).due = s.due := rfl
@[simp] theorem State.recordDivider_dispatch (m : Nat) : (s.recordDivider m).dispatch = s.dispatch := rfl
@[simp] theorem State.recordDivider_lines (m : Nat) : (s.recordDivider m).lines = s.lines := rfl
@[simp] theorem State.recordDivider_lanes (m : Nat) : (s.recordDivider m).lanes = s.lanes := rfl
@[simp] theorem State.recordDivider_strobes (m : Nat) : (s.recordDivider m).strobes = s.strobes := rfl
@[simp] theorem State.recordDivider_tripA (m : Nat) : (s.recordDivider m).tripA = s.tripA := rfl
@[simp] theorem State.recordDivider_tripB (m : Nat) : (s.recordDivider m).tripB = s.tripB := rfl
@[simp] theorem State.recordDivider_soft (m : Nat) : (s.recordDivider m).soft = s.soft := rfl
@[simp] theorem State.recordDivider_link (m : Nat) : (s.recordDivider m).link = s.link := rfl
@[simp] theorem State.recordDivider_clkEdges (m : Nat) : (s.recordDivider m).clkEdges = s.clkEdges := rfl
@[simp] theorem State.recordDivider_entry (m : Nat) (x : Fin 64) : (s.recordDivider m).entry x = s.entry x := rfl
@[simp] theorem State.recordDivider_line (m : Nat) (x : Fin 8) : (s.recordDivider m).line x = s.line x := rfl
@[simp] theorem State.recordDivider_lane (m : Nat) (x : Fin 16) : (s.recordDivider m).lane x = s.lane x := rfl
@[simp] theorem State.recordDivider_strobe (m : Nat) (x : Fin 4) : (s.recordDivider m).strobe x = s.strobe x := rfl
@[simp] theorem State.recordDivider_trip (m : Nat) (x : TripInput) : (s.recordDivider m).trip x = s.trip x := rfl
@[simp] theorem State.recordDivider_inReset (m : Nat) : (s.recordDivider m).inReset = s.inReset := rfl

/-! ### restartTick -/

@[simp] theorem State.restartTick_pending (t : Instant) : (s.restartTick t).pending = s.pending := rfl
@[simp] theorem State.restartTick_pins (t : Instant) : (s.restartTick t).pins = s.pins := rfl
@[simp] theorem State.restartTick_now (t : Instant) : (s.restartTick t).now = t := rfl
@[simp] theorem State.restartTick_divider (t : Instant) : (s.restartTick t).divider = s.divider := rfl
@[simp] theorem State.restartTick_tickLength (t : Instant) : (s.restartTick t).tickLength = s.divider := rfl
@[simp] theorem State.restartTick_tickPhase (t : Instant) : (s.restartTick t).tickPhase = 0 := rfl
@[simp] theorem State.restartTick_entries (t : Instant) : (s.restartTick t).entries = s.entries := rfl
@[simp] theorem State.restartTick_due (t : Instant) : (s.restartTick t).due = s.due := rfl
@[simp] theorem State.restartTick_dispatch (t : Instant) : (s.restartTick t).dispatch = s.dispatch := rfl
@[simp] theorem State.restartTick_lines (t : Instant) : (s.restartTick t).lines = s.lines := rfl
@[simp] theorem State.restartTick_lanes (t : Instant) : (s.restartTick t).lanes = s.lanes := rfl
@[simp] theorem State.restartTick_strobes (t : Instant) : (s.restartTick t).strobes = s.strobes := rfl
@[simp] theorem State.restartTick_tripA (t : Instant) : (s.restartTick t).tripA = s.tripA := rfl
@[simp] theorem State.restartTick_tripB (t : Instant) : (s.restartTick t).tripB = s.tripB := rfl
@[simp] theorem State.restartTick_soft (t : Instant) : (s.restartTick t).soft = s.soft := rfl
@[simp] theorem State.restartTick_link (t : Instant) : (s.restartTick t).link = s.link := rfl
@[simp] theorem State.restartTick_clkEdges (t : Instant) : (s.restartTick t).clkEdges = s.clkEdges := rfl
@[simp] theorem State.restartTick_entry (t : Instant) (x : Fin 64) : (s.restartTick t).entry x = s.entry x := rfl
@[simp] theorem State.restartTick_line (t : Instant) (x : Fin 8) : (s.restartTick t).line x = s.line x := rfl
@[simp] theorem State.restartTick_lane (t : Instant) (x : Fin 16) : (s.restartTick t).lane x = s.lane x := rfl
@[simp] theorem State.restartTick_strobe (t : Instant) (x : Fin 4) : (s.restartTick t).strobe x = s.strobe x := rfl
@[simp] theorem State.restartTick_trip (t : Instant) (x : TripInput) : (s.restartTick t).trip x = s.trip x := rfl
@[simp] theorem State.restartTick_inReset (t : Instant) : (s.restartTick t).inReset = s.inReset := rfl

/-! ### Reading what was written -/

@[simp] theorem State.entry_setEntry_self (e : Fin 64) (r : Entry) : (s.setEntry e r).entry e = r := by
  simp [State.entry]

theorem State.entry_setEntry_ne {e x : Fin 64} (r : Entry) (h : x ≠ e) : (s.setEntry e r).entry x = s.entry x := by
  simp only [State.entry, State.setEntry_entries]
  exact Vector.getElem_set_ne _ _ (fun c => h (Fin.ext c.symm))

@[simp] theorem State.line_setLine_self (n : Fin 8) (r : TriggerLine) : (s.setLine n r).line n = r := by
  simp [State.line]

theorem State.line_setLine_ne {n x : Fin 8} (r : TriggerLine) (h : x ≠ n) : (s.setLine n r).line x = s.line x := by
  simp only [State.line, State.setLine_lines]
  exact Vector.getElem_set_ne _ _ (fun c => h (Fin.ext c.symm))

@[simp] theorem State.lane_setLane_self (l : Fin 16) (r : Lane) : (s.setLane l r).lane l = r := by
  simp [State.lane]

theorem State.lane_setLane_ne {l x : Fin 16} (r : Lane) (h : x ≠ l) : (s.setLane l r).lane x = s.lane x := by
  simp only [State.lane, State.setLane_lanes]
  exact Vector.getElem_set_ne _ _ (fun c => h (Fin.ext c.symm))

@[simp] theorem State.strobe_setStrobe_self (k : Fin 4) (r : StrobeLine) : (s.setStrobe k r).strobe k = r := by
  simp [State.strobe]

theorem State.strobe_setStrobe_ne {k x : Fin 4} (r : StrobeLine) (h : x ≠ k) :
    (s.setStrobe k r).strobe x = s.strobe x := by
  simp only [State.strobe, State.setStrobe_strobes]
  exact Vector.getElem_set_ne _ _ (fun c => h (Fin.ext c.symm))

@[simp] theorem State.trip_setTrip_self (i : TripInput) (r : TripSource) : (s.setTrip i r).trip i = r := by
  cases i <;> rfl

theorem State.trip_setTrip_ne {i j : TripInput} (r : TripSource) (h : j ≠ i) : (s.setTrip i r).trip j = s.trip j := by
  cases i <;> cases j <;> first | rfl | exact absurd rfl h

/-! ### A write at any place, as one conditional -/

theorem State.entry_setEntry (e x : Fin 64) (r : Entry) :
    (s.setEntry e r).entry x = if x = e then r else s.entry x := by
  split
  · next h => rw [h, State.entry_setEntry_self]
  · next h => exact s.entry_setEntry_ne r h

theorem State.line_setLine (n x : Fin 8) (r : TriggerLine) :
    (s.setLine n r).line x = if x = n then r else s.line x := by
  split
  · next h => rw [h, State.line_setLine_self]
  · next h => exact s.line_setLine_ne r h

theorem State.lane_setLane (l x : Fin 16) (r : Lane) :
    (s.setLane l r).lane x = if x = l then r else s.lane x := by
  split
  · next h => rw [h, State.lane_setLane_self]
  · next h => exact s.lane_setLane_ne r h

theorem State.strobe_setStrobe (k x : Fin 4) (r : StrobeLine) :
    (s.setStrobe k r).strobe x = if x = k then r else s.strobe x := by
  split
  · next h => rw [h, State.strobe_setStrobe_self]
  · next h => exact s.strobe_setStrobe_ne r h

/-! ### Writing back what is there -/

@[simp] theorem State.setLine_line_self (n : Fin 8) : s.setLine n (s.line n) = s := by
  simp [State.setLine, State.line]

@[simp] theorem State.setLane_lane_self (l : Fin 16) : s.setLane l (s.lane l) = s := by
  simp [State.setLane, State.lane]

@[simp] theorem State.setEntry_entry_self (e : Fin 64) : s.setEntry e (s.entry e) = s := by
  simp [State.setEntry, State.entry]

/-! ### Two states are equal when every record is -/

theorem State.entries_ext {a b : State} (h : ∀ e : Fin 64, a.entry e = b.entry e) : a.entries = b.entries :=
  Vector.ext fun i hi => h ⟨i, hi⟩

theorem State.lines_ext {a b : State} (h : ∀ n : Fin 8, a.line n = b.line n) : a.lines = b.lines :=
  Vector.ext fun i hi => h ⟨i, hi⟩

theorem State.lanes_ext {a b : State} (h : ∀ l : Fin 16, a.lane l = b.lane l) : a.lanes = b.lanes :=
  Vector.ext fun i hi => h ⟨i, hi⟩

theorem State.strobes_ext {a b : State} (h : ∀ k : Fin 4, a.strobe k = b.strobe k) : a.strobes = b.strobes :=
  Vector.ext fun i hi => h ⟨i, hi⟩

end Sys2Proof.Machine
end

