-- ==== Sys2Proof/Laws/Ops.lean ====
section
/-! SUPPORT. What each shared operation of Machine/Ops.lean can do, said once: instants and counters, the due list, the
subscription lists, lanes, strobe lines and orders. -/

namespace Sys2Proof.Machine

/-! ### Counters and instants -/

/-- One more, stopping at the greatest value, as a number (R16, R44). -/
theorem satSucc_eq_min {w : Nat} (x : BitVec w) :
    satSucc x = BitVec.ofNat w (min (2 ^ w - 1) (x.toNat + 1)) := by
  have hx := x.isLt
  unfold satSucc
  split
  · next h =>
    subst h
    apply BitVec.eq_of_toNat_eq
    simp only [BitVec.toNat_allOnes, BitVec.toNat_ofNat]
    have hp : 0 < 2 ^ w := Nat.two_pow_pos w
    have : min (2 ^ w - 1) (2 ^ w - 1 + 1) = 2 ^ w - 1 := by omega
    rw [this, Nat.mod_eq_of_lt (by omega)]
  · next h =>
    have hn : x.toNat ≠ 2 ^ w - 1 := fun c => h (BitVec.eq_of_toNat_eq (by simpa using c))
    apply BitVec.eq_of_toNat_eq
    have hm : min (2 ^ w - 1) (x.toNat + 1) = x.toNat + 1 := by omega
    rw [hm]
    simp

/-- Past means a negative signed difference (R4). -/
theorem isPast_iff (x now : Instant) : isPast x now = true ↔ signedDiff x now < 0 := by
  simp only [isPast, signedDiff, BitVec.toInt_eq_toNat_cond, decide_eq_true_eq]
  have := (x - now).isLt
  split <;> omega

/-- At or before `now` means a signed difference of zero or less (R4, R72). -/
theorem atOrBefore_iff (x now : Instant) : atOrBefore x now = true ↔ signedDiff x now ≤ 0 := by
  simp only [atOrBefore, Bool.or_eq_true, isPast_iff, decide_eq_true_eq]
  constructor
  · rintro (rfl | h)
    · simp [signedDiff]
    · omega
  · intro h
    rcases Int.lt_or_eq_of_le h with h | h
    · exact .inr h
    · refine .inl ?_
      have h0 : x - now = 0 := BitVec.eq_of_toInt_eq (by simpa [signedDiff] using h)
      exact BitVec.sub_eq_iff_eq_add.mp h0 |>.trans (by simp)

/-- An instant that is not past has no lateness (R6). -/
theorem lateness_of_not_past {x now : Instant} (h : 0 ≤ signedDiff x now) : lateness x now = 0 := by
  have : isPast x now = false := by
    rw [Bool.eq_false_iff]
    intro c
    have := (isPast_iff x now).mp c
    omega
  simp [lateness, this]

/-! ### The due list (R65 to R69) -/

/-- The order of the due list is transitive (R66). -/
theorem DueItem.before_trans {now : Instant} {i j k : DueItem} (h1 : i.before now j = true)
    (h2 : j.before now k = true) : i.before now k = true := by
  simp only [DueItem.before, Bool.or_eq_true, Bool.and_eq_true, decide_eq_true_eq] at *
  omega

/-- Two items of different entries are ordered one way or the other (R66). -/
theorem DueItem.before_total {now : Instant} {i j : DueItem} (h : i.entry ≠ j.entry)
    (hij : i.before now j = false) : j.before now i = true := by
  have hv : i.entry.val ≠ j.entry.val := fun c => h (Fin.ext c)
  simp only [DueItem.before, Bool.or_eq_false_iff, Bool.and_eq_false_iff, decide_eq_false_iff_not] at hij
  simp only [DueItem.before, Bool.or_eq_true, Bool.and_eq_true, decide_eq_true_eq]
  omega

/-- An insertion adds the item and nothing else. -/
theorem insertInOrder_perm (now : Instant) (i : DueItem) (l : List DueItem) : (insertInOrder now i l).Perm (i :: l) := by
  induction l with
  | nil => exact .refl _
  | cons j rest ih =>
    simp only [insertInOrder]
    split
    · exact .refl _
    · exact (ih.cons j).trans (.swap i j rest)

/-- An insertion keeps the order of the list (R66). -/
theorem insertInOrder_pairwise {now : Instant} {i : DueItem} {l : List DueItem}
    (hl : l.Pairwise fun a b => a.before now b = true) (hi : ∀ j ∈ l, i.entry ≠ j.entry) :
    (insertInOrder now i l).Pairwise fun a b => a.before now b = true := by
  induction l with
  | nil => simp [insertInOrder]
  | cons j rest ih =>
    rw [List.pairwise_cons] at hl
    simp only [insertInOrder]
    split
    · next h =>
      refine List.pairwise_cons.mpr ⟨fun k hk => ?_, List.pairwise_cons.mpr hl⟩
      rcases List.mem_cons.mp hk with rfl | hk
      · exact h
      · exact DueItem.before_trans h (hl.1 k hk)
    · next h =>
      refine List.pairwise_cons.mpr ⟨fun k hk => ?_, ih hl.2 fun k hk => hi k (List.mem_cons_of_mem _ hk)⟩
      rcases List.mem_cons.mp ((insertInOrder_perm now i rest).mem_iff.mp hk) with rfl | hk
      · exact DueItem.before_total (hi j List.mem_cons_self) (by simpa using h)
      · exact hl.1 k hk

/-- What is filtered out of a list stays where it was when an item that fails the filter joins it. -/
theorem insertInOrder_filter_of_not (now : Instant) (i : DueItem) (l : List DueItem) (p : DueItem → Bool)
    (hi : p i = false) : (insertInOrder now i l).filter p = l.filter p := by
  induction l with
  | nil => simp [insertInOrder, hi]
  | cons j rest ih =>
    simp only [insertInOrder]
    split
    · simp [hi]
    · simp only [List.filter_cons, ih]

/-- The list after an entry's item has left it (R69). -/
@[simp] theorem State.removeDue_due (s : State) (e : Fin 64) :
    (s.removeDue e).due = s.due.filter fun i => decide (i.entry ≠ e) := rfl

/-- The list after an entry's item has joined it: its own item and those of the others (R65, R68). -/
theorem State.joinDue_due_perm (s : State) (e : Fin 64) :
    (s.joinDue e).due.Perm (⟨(s.entry e).nextInstant, e⟩ :: s.due.filter fun i => decide (i.entry ≠ e)) :=
  insertInOrder_perm _ _ _

/-- An item of an entry that joins the list is the one item of that entry (R68). -/
theorem State.joinDue_mem_iff (s : State) (e : Fin 64) (i : DueItem) :
    i ∈ (s.joinDue e).due ↔ i = ⟨(s.entry e).nextInstant, e⟩ ∨ (i ∈ s.due ∧ i.entry ≠ e) := by
  rw [(s.joinDue_due_perm e).mem_iff]
  simp

/-- The items of the other entries stay as they were and in their order (R66). -/
theorem State.joinDue_others (s : State) (e : Fin 64) :
    ((s.joinDue e).due.filter fun i => decide (i.entry ≠ e)) = s.due.filter fun i => decide (i.entry ≠ e) := by
  unfold State.joinDue
  rw [State.setDue_due, insertInOrder_filter_of_not _ _ _ _ (by simp), List.filter_filter]
  simp only [Bool.and_self]

/-- The list stays in order when an item joins it (R66). -/
theorem State.joinDue_pairwise (s : State) (e : Fin 64)
    (h : s.due.Pairwise fun a b => a.before s.now b = true) :
    (s.joinDue e).due.Pairwise fun a b => a.before s.now b = true := by
  refine insertInOrder_pairwise (h.filter _) fun j hj => ?_
  exact Ne.symm (of_decide_eq_true (List.mem_filter.mp hj).2)

/-! ### Subscription lists (R85 to R87) -/

/-- A line after an entry has joined its list (R86). -/
theorem State.subscribe_line (s : State) (n x : Fin 8) (e : Fin 64) :
    (s.subscribe n e).line x = if x = n then { s.line n with subs := (s.line n).subs ++ [e] } else s.line x :=
  s.line_setLine n x _

/-- A line after an entry has left the list its start names: no other line changes, and no other entry leaves (R87). -/
theorem State.unsubscribe_line (s : State) (e : Fin 64) (x : Fin 8) :
    (s.unsubscribe e).line x =
      if (s.entry e).start.bind Start.line? = some x then
        { s.line x with subs := (s.line x).subs.filter fun y => decide (y ≠ e) }
      else s.line x := by
  unfold State.unsubscribe
  split
  · next n m r h =>
    simp only [h, Option.bind_some, Start.line?, Option.some.injEq, State.unsubscribeFrom]
    rw [s.line_setLine]
    simp only [eq_comm (a := x)]
    split
    · next c => rw [c]
    · rfl
  · next h =>
    rw [if_neg]
    intro c
    rcases hs : (s.entry e).start with _ | (⟨t, b⟩ | ⟨n, m, r⟩ | p)
    · simp [hs] at c
    · simp [hs, Start.line?] at c
    · exact h _ _ _ hs
    · simp [hs, Start.line?] at c

/-- Leaving a list changes the lines alone. -/
theorem State.unsubscribe_eq (s : State) (e : Fin 64) : ∃ ls, s.unsubscribe e = { s with lines := ls } := by
  unfold State.unsubscribe
  split
  · exact ⟨_, rfl⟩
  · exact ⟨s.lines, rfl⟩

/-! ### Lanes (R98 to R103) -/

/-- `tripped-by` holds a source exactly when it is not empty (R131). -/
theorem TrippedBy.any_iff (t : TrippedBy) : t.any = true ↔ t ≠ TrippedBy.empty := by
  rcases t with ⟨a, b, c⟩
  cases a <;> cases b <;> cases c <;> decide

/-- A lane after the release of an entry's claim: only the lane the entry names changes (R103). -/
theorem State.releaseLane_lane (s : State) (e : Fin 64) (taker : Option (Fin 64)) (x : Fin 16) :
    (s.releaseLane e taker).lane x =
      if (s.entry e).prog.lane = some x then (s.lane x).released e taker else s.lane x := by
  unfold State.releaseLane
  split
  · next l h =>
    rw [s.lane_setLane]
    simp only [h, Option.some.injEq, eq_comm (a := x)]
    split
    · next c => rw [c]
    · rfl
  · next h => simp [h]

/-- The release of a claim changes the lanes alone. -/
theorem State.releaseLane_eq (s : State) (e : Fin 64) (taker : Option (Fin 64)) :
    ∃ ls, s.releaseLane e taker = { s with lanes := ls } := by
  unfold State.releaseLane
  split
  · exact ⟨_, rfl⟩
  · exact ⟨s.lanes, rfl⟩

/-- An entry holds no lane after its release (R28, R103). -/
theorem Lane.released_holds_none (l : Lane) (e : Fin 64) (taker : Option (Fin 64)) (h : l.heir ≠ l.owner ∨ l.owner = none) :
    (l.released e taker).owner ≠ some e ∧ (l.released e taker).heir ≠ some e := by
  unfold Lane.released
  split
  · next ho =>
    have hn : l.heir ≠ some e := by
      rcases h with h | h
      · rwa [ho] at h
      · simp [ho] at h
    split <;> simp [hn]
  · next ho =>
    split
    · next hh => simp [ho]
    · next hh => exact ⟨ho, hh⟩

/-- The release of a claim keeps the settings, the forced level and the sources of a lane (R103). -/
theorem Lane.released_settings (l : Lane) (e : Fin 64) (taker : Option (Fin 64)) :
    (l.released e taker).polarity = l.polarity ∧ (l.released e taker).safeLevel = l.safeLevel ∧
      (l.released e taker).forced = l.forced ∧ (l.released e taker).trippedBy = l.trippedBy := by
  unfold Lane.released
  repeat' split
  all_goals exact ⟨rfl, rfl, rfl, rfl⟩

/-- A lane after an event has handed it a level: `call` of the lane that the entry owns and names (R102). -/
theorem State.handLevel_lane (s : State) (e : Fin 64) (c : Call) (x : Fin 16) :
    (s.handLevel e c).lane x =
      if (s.entry e).prog.lane = some x ∧ (s.lane x).owner = some e then { s.lane x with call := c } else s.lane x := by
  unfold State.handLevel
  split
  · next l h =>
    simp only [h, Option.some.injEq]
    split
    · next ho =>
      rw [s.lane_setLane]
      by_cases hx : x = l
      · subst hx; simp [ho]
      · rw [if_neg hx, if_neg fun c => hx c.1.symm]
    · next ho =>
      rw [if_neg]
      rintro ⟨rfl, c⟩
      exact ho c
  · next h => simp [h]

/-- A handed level changes the lanes alone. -/
theorem State.handLevel_eq (s : State) (e : Fin 64) (c : Call) : ∃ ls, s.handLevel e c = { s with lanes := ls } := by
  unfold State.handLevel
  repeat' split
  · exact ⟨_, rfl⟩
  · exact ⟨s.lanes, rfl⟩
  · exact ⟨s.lanes, rfl⟩

/-! ### Strobe lines (R109 to R111) -/

/-- A strobe line after a strobe point of an entry has been served, or has not (R46, R109, R111). -/
theorem State.serveStrobe_strobe (s : State) (e : Fin 64) (served : Bool) (k : Fin 4) :
    (s.serveStrobe e served).strobe k =
      if served = true ∧ ((s.entry e).prog.strobe.map StrobeUse.line) = some k ∧ (s.strobe k).remaining = 0 then
        { s.strobe k with remaining := (s.strobe k).width, countdownDue := false }
      else s.strobe k := by
  unfold State.serveStrobe
  rcases hu : (s.entry e).prog.strobe with _ | u
  · simp
  · simp only [Option.map_some, Option.some.injEq]
    cases served
    · simp
    · simp only [if_true, true_and, State.strobeRequest]
      split
      · next h0 =>
        rw [s.strobe_setStrobe]
        by_cases hk : k = u.line
        · subst hk; simp [h0]
        · rw [if_neg hk, if_neg fun c => hk c.1.symm]
      · next h0 =>
        rw [State.setEntry_strobe, if_neg]
        rintro ⟨rfl, c⟩
        exact h0 c

/-- An entry after a strobe point has been served: STROBE_MERGED where the line was HIGH, and nothing else (R111). -/
theorem State.serveStrobe_entry (s : State) (e : Fin 64) (served : Bool) (x : Fin 64) :
    (s.serveStrobe e served).entry x =
      if x = e ∧ served = true ∧ ∃ u, (s.entry e).prog.strobe = some u ∧ (s.strobe u.line).remaining ≠ 0 then
        (s.entry e).strobeMerged
      else s.entry x := by
  unfold State.serveStrobe
  rcases hu : (s.entry e).prog.strobe with _ | u
  · simp
  · cases served
    · simp
    · simp only [if_true, true_and, Option.some.injEq, exists_eq_left', State.strobeRequest]
      by_cases h0 : (s.strobe u.line).remaining = 0
      · simp [h0]
      · simp only [h0, if_false, ne_eq, not_false_eq_true, and_true]
        exact s.entry_setEntry e x _

/-- Serving a strobe point changes the strobe lines and the entries alone. -/
theorem State.serveStrobe_eq (s : State) (e : Fin 64) (served : Bool) :
    ∃ es ks, s.serveStrobe e served = { s with entries := es, strobes := ks } := by
  unfold State.serveStrobe State.strobeRequest
  repeat' split
  · exact ⟨s.entries, _, rfl⟩
  · exact ⟨_, s.strobes, rfl⟩
  · exact ⟨s.entries, s.strobes, rfl⟩
  · exact ⟨s.entries, s.strobes, rfl⟩

/-- A strobe line after the countdown it owes (R110). -/
theorem State.countdown_strobe (s : State) (k x : Fin 4) :
    (s.countdown k).strobe x =
      if x = k ∧ (s.strobe k).countdownDue = true then
        { s.strobe k with remaining := (s.strobe k).remaining - 1, countdownDue := false }
      else s.strobe x := by
  unfold State.countdown
  split
  · next h => rw [s.strobe_setStrobe]; simp [h]
  · next h => simp [h]

/-! ### Orders -/

/-- What is left when repeats are erased has none. -/
theorem nodup_eraseDups {α : Type} [DecidableEq α] (l : List α) : l.eraseDups.Nodup := by
  rcases l with _ | ⟨a, as⟩
  · simp
  · rw [List.eraseDups_cons, List.nodup_cons]
    exact ⟨by simp, nodup_eraseDups _⟩
termination_by l.length
decreasing_by
  simp only [List.length_cons]
  exact Nat.lt_succ_of_le (List.length_filter_le _ _)

/-- A whole order is a rearrangement of all its parts. -/
theorem orderedBy_perm {α : Type} [DecidableEq α] (first all : List α) (h : all.Nodup) :
    (orderedBy first all).Perm all := by
  have hn : ((first.eraseDups).filter fun x => all.contains x).Nodup := (nodup_eraseDups first).filter _
  apply (List.perm_ext_iff_of_nodup _ h).mpr
  · intro a
    simp only [orderedBy, List.mem_append, List.mem_filter, List.mem_eraseDups, List.contains_iff_mem,
      Bool.not_eq_true']
    by_cases ha : a ∈ first <;> simp [ha]
  · refine List.nodup_append.mpr ⟨hn, h.filter _, fun a ha b hb hab => ?_⟩
    subst hab
    simp only [List.mem_filter] at hb
    simp [List.mem_filter.mp ha] at hb

end Sys2Proof.Machine
end

