-- ==== Sys2Proof/Laws/Runs.lean ====
section
/-! SUPPORT. What retirement, the running of entries, the walk and the dispatch leave alone, said once for each operation of
Machine/Retirement.lean, Running.lean, Triggers.lean and Dispatcher.lean. -/

namespace Sys2Proof.Machine

/-- What no event of a run touches: the timebase, the trip unit, the link, the pins, the queue, the settings of lanes, the
filters of trigger lines and the widths of strobe lines; and none makes a strobe line owe a countdown. -/
structure State.RunFrame (s t : State) : Prop where
  outside : s.SameOutsideRuns t
  lanes : s.SameLaneSettings t
  filters : s.SameFilters t
  widths : ∀ k : Fin 4, (t.strobe k).width = (s.strobe k).width
  owed : ∀ k : Fin 4, (t.strobe k).countdownDue = true → (s.strobe k).countdownDue = true
  dispatch : t.dispatch = s.dispatch

namespace State.RunFrame

variable {s t u : State}

theorem refl (s : State) : s.RunFrame s :=
  ⟨⟨⟨rfl, rfl, rfl, rfl⟩, ⟨rfl, rfl, rfl⟩, rfl, rfl, rfl, rfl⟩, fun _ => ⟨rfl, rfl, rfl, rfl⟩, fun _ => rfl, fun _ => rfl,
    fun _ => id, rfl⟩

theorem trans (h : s.RunFrame t) (k : t.RunFrame u) : s.RunFrame u := by
  obtain ⟨⟨⟨a1, a2, a3, a4⟩, ⟨b1, b2, b3⟩, c1, c2, c3, c4⟩, l, f, w, o, d⟩ := h
  obtain ⟨⟨⟨a1', a2', a3', a4'⟩, ⟨b1', b2', b3'⟩, c1', c2', c3', c4'⟩, l', f', w', o', d'⟩ := k
  exact ⟨⟨⟨a1'.trans a1, a2'.trans a2, a3'.trans a3, a4'.trans a4⟩, ⟨b1'.trans b1, b2'.trans b2, b3'.trans b3⟩,
      c1'.trans c1, c2'.trans c2, c3'.trans c3, c4'.trans c4⟩,
    fun x => ⟨(l' x).1.trans (l x).1, (l' x).2.1.trans (l x).2.1, (l' x).2.2.1.trans (l x).2.2.1,
      (l' x).2.2.2.trans (l x).2.2.2⟩,
    fun n => (f' n).trans (f n), fun k => (w' k).trans (w k), fun k h => o k (o' k h),
    d'.trans d⟩

theorem now_eq (h : s.RunFrame t) : t.now = s.now := h.outside.1.1

theorem ite {c : Prop} [Decidable c] (ht : s.RunFrame t) (hu : s.RunFrame u) : s.RunFrame (if c then t else u) := by
  split
  · exact ht
  · exact hu

/-- A frame over a list of steps, each of which has it. -/
theorem foldl {α : Type} {f : State → α → State} (hf : ∀ (s : State) (a : α), s.RunFrame (f s a)) (l : List α) (s : State) :
    s.RunFrame (l.foldl f s) := by
  induction l generalizing s with
  | nil => exact .refl s
  | cons a l ih => exact (hf s a).trans (ih _)

end State.RunFrame

/-! ### Single updates -/

theorem State.setEntry_frame (s : State) (e : Fin 64) (r : Entry) : s.RunFrame (s.setEntry e r) :=
  ⟨⟨⟨rfl, rfl, rfl, rfl⟩, ⟨rfl, rfl, rfl⟩, rfl, rfl, rfl, rfl⟩, fun _ => ⟨rfl, rfl, rfl, rfl⟩, fun _ => rfl, fun _ => rfl,
    fun _ => id, rfl⟩

theorem State.setDue_frame (s : State) (d : List DueItem) : s.RunFrame (s.setDue d) :=
  ⟨⟨⟨rfl, rfl, rfl, rfl⟩, ⟨rfl, rfl, rfl⟩, rfl, rfl, rfl, rfl⟩, fun _ => ⟨rfl, rfl, rfl, rfl⟩, fun _ => rfl, fun _ => rfl,
    fun _ => id, rfl⟩

/-- A write of a lane that keeps its settings. -/
theorem State.setLane_frame (s : State) (l : Fin 16) (r : Lane) (hp : r.polarity = (s.lane l).polarity)
    (hs : r.safeLevel = (s.lane l).safeLevel) (hf : r.forced = (s.lane l).forced)
    (ht : r.trippedBy = (s.lane l).trippedBy) : s.RunFrame (s.setLane l r) := by
  refine ⟨⟨⟨rfl, rfl, rfl, rfl⟩, ⟨rfl, rfl, rfl⟩, rfl, rfl, rfl, rfl⟩, fun x => ?_, fun _ => rfl, fun _ => rfl,
    fun _ => id, rfl⟩
  rw [s.lane_setLane]
  split
  · next h => subst h; exact ⟨hp, hs, hf, ht⟩
  · exact ⟨rfl, rfl, rfl, rfl⟩

/-- A write of a line's subscription list. -/
theorem State.setSubs_frame (s : State) (n : Fin 8) (subs : List (Fin 64)) :
    s.RunFrame (s.setLine n { s.line n with subs := subs }) := by
  refine ⟨⟨⟨rfl, rfl, rfl, rfl⟩, ⟨rfl, rfl, rfl⟩, rfl, rfl, rfl, rfl⟩, fun _ => ⟨rfl, rfl, rfl, rfl⟩, fun x => ?_, fun _ => rfl,
    fun _ => id, rfl⟩
  rw [s.line_setLine]
  split
  · next h => subst h; rfl
  · rfl

/-- A write of a strobe line that keeps its width and makes it owe nothing. -/
theorem State.setStrobe_frame (s : State) (k : Fin 4) (r : StrobeLine) (h : r.width = (s.strobe k).width)
    (ho : r.countdownDue = false) : s.RunFrame (s.setStrobe k r) := by
  refine ⟨⟨⟨rfl, rfl, rfl, rfl⟩, ⟨rfl, rfl, rfl⟩, rfl, rfl, rfl, rfl⟩, fun _ => ⟨rfl, rfl, rfl, rfl⟩, fun _ => rfl, fun x => ?_,
    fun x => ?_, rfl⟩
  · rw [s.strobe_setStrobe]
    split
    · next hx => subst hx; exact h
    · rfl
  · rw [s.strobe_setStrobe]
    split
    · simp [ho]
    · exact id

/-! ### Retirement -/

theorem State.removeDue_frame (s : State) (e : Fin 64) : s.RunFrame (s.removeDue e) := s.setDue_frame _

theorem State.joinDue_frame (s : State) (e : Fin 64) : s.RunFrame (s.joinDue e) := s.setDue_frame _

theorem State.unsubscribe_frame (s : State) (e : Fin 64) : s.RunFrame (s.unsubscribe e) := by
  unfold State.unsubscribe
  split
  · exact s.setSubs_frame _ _
  · exact .refl s

theorem State.releaseLane_frame (s : State) (e : Fin 64) (taker : Option (Fin 64)) :
    s.RunFrame (s.releaseLane e taker) := by
  unfold State.releaseLane
  split
  · next l _ =>
    obtain ⟨hp, hs, hf, ht⟩ := (s.lane l).released_settings e taker
    exact s.setLane_frame l _ hp hs hf ht
  · exact .refl s

theorem State.clearSuccessor_frame (s : State) (p e : Fin 64) : s.RunFrame (s.clearSuccessor p e) :=
  .ite (s.setEntry_frame _ _) (.refl s)

theorem State.unlinkPredecessor_frame (s : State) (e : Fin 64) : s.RunFrame (s.unlinkPredecessor e) := by
  unfold State.unlinkPredecessor
  split
  · exact s.clearSuccessor_frame _ _
  · exact .refl s

theorem State.unlink_frame (s : State) (p y : Fin 64) : s.RunFrame (s.unlink p y) :=
  (s.clearSuccessor_frame p y).trans (.ite (State.setEntry_frame _ _ _) (.refl _))

theorem State.retireOne_frame (s : State) (e : Fin 64) (oc : EntryOutcome) (taker : Option (Fin 64)) :
    s.RunFrame (s.retireOne e oc taker) :=
  .ite (((((s.unlinkPredecessor_frame e).trans (State.setEntry_frame _ _ _)).trans (State.removeDue_frame _ _)).trans
    (State.unsubscribe_frame _ _)).trans (State.releaseLane_frame _ _ _)) (.refl s)

theorem State.breakFrom_frame (k : Nat) (s : State) (y : Option (Fin 64)) : s.RunFrame (s.breakFrom k y) := by
  induction k generalizing s y with
  | zero => exact .refl s
  | succ k ih =>
    rcases y with _ | y
    · exact .refl s
    · unfold State.breakFrom
      split
      · exact ((s.retireOne_frame _ _ _).trans (State.unlink_frame _ _ _)).trans (ih _ _)
      · exact s.retireOne_frame _ _ _

theorem State.breakBehind_frame (s : State) (e : Fin 64) : s.RunFrame (s.breakBehind e) := by
  unfold State.breakBehind
  split
  · exact (s.unlink_frame _ _).trans (State.breakFrom_frame _ _ _)
  · exact .refl s

theorem State.retireBroken_frame (s : State) (e : Fin 64) (oc : EntryOutcome) : s.RunFrame (s.retireBroken e oc) :=
  .ite ((s.retireOne_frame _ _ _).trans (State.breakBehind_frame _ _)) (.refl s)

/-- A retirement of an entry that is not scheduled does nothing (R29). -/
theorem State.retireOne_of_not_scheduled (s : State) {e : Fin 64} (oc : EntryOutcome) (taker : Option (Fin 64))
    (h : (s.entry e).scheduled = false) : s.retireOne e oc taker = s := by
  simp [State.retireOne, h]

/-- The other end of a link is cleared where it names the entry (R116). -/
theorem State.clearSuccessor_entry (s : State) (p e x : Fin 64) :
    (s.clearSuccessor p e).entry x =
      if x = p ∧ (s.entry p).successor = some e then { s.entry p with successor := none } else s.entry x := by
  unfold State.clearSuccessor
  split
  · next h => rw [s.entry_setEntry]; simp [h]
  · next h => simp [h]

/-- The record of an entry that retires (R27, R116); its successor link is removed by what follows. -/
theorem State.retireOne_entry_self (s : State) {e : Fin 64} (oc : EntryOutcome) (taker : Option (Fin 64))
    (h : (s.entry e).scheduled = true) :
    (s.retireOne e oc taker).entry e = ((s.unlinkPredecessor e).entry e).retired oc s.now := by
  unfold State.retireOne
  rw [if_pos h]
  generalize hu : ((s.unlinkPredecessor e).setEntry e _).removeDue e = v
  obtain ⟨ls, hls⟩ := v.unsubscribe_eq e
  obtain ⟨ks, hks⟩ := (v.unsubscribe e).releaseLane_eq e taker
  rw [hks, hls, ← hu]
  exact State.entry_setEntry_self _ _ _

/-- The record of another entry after a retirement: its predecessor loses the link to it, and nothing else changes (R27). -/
theorem State.retireOne_entry_ne (s : State) {e x : Fin 64} (oc : EntryOutcome) (taker : Option (Fin 64)) (h : x ≠ e) :
    (s.retireOne e oc taker).entry x =
      if (s.entry e).scheduled = true then (s.unlinkPredecessor e).entry x else s.entry x := by
  unfold State.retireOne
  split
  · generalize hu : ((s.unlinkPredecessor e).setEntry e _).removeDue e = v
    obtain ⟨ls, hls⟩ := v.unsubscribe_eq e
    obtain ⟨ks, hks⟩ := (v.unsubscribe e).releaseLane_eq e taker
    rw [hks, hls, ← hu]
    exact State.entry_setEntry_ne _ _ h
  · rfl

/-- The due list after a retirement: the entry's item has left it (R28, R69). -/
theorem State.retireOne_due (s : State) {e : Fin 64} (oc : EntryOutcome) (taker : Option (Fin 64))
    (h : (s.entry e).scheduled = true) :
    (s.retireOne e oc taker).due = s.due.filter fun i => decide (i.entry ≠ e) := by
  unfold State.retireOne
  rw [if_pos h]
  generalize hu : ((s.unlinkPredecessor e).setEntry e _).removeDue e = v
  obtain ⟨ls, hls⟩ := v.unsubscribe_eq e
  obtain ⟨ks, hks⟩ := (v.unsubscribe e).releaseLane_eq e taker
  rw [hks, hls, ← hu]
  have : (s.unlinkPredecessor e).due = s.due := by
    unfold State.unlinkPredecessor State.clearSuccessor
    repeat' split
    all_goals rfl
  simp [this]

/-! ### Running -/

theorem State.handLevel_frame (s : State) (e : Fin 64) (c : Call) : s.RunFrame (s.handLevel e c) := by
  unfold State.handLevel
  repeat' split
  · exact s.setLane_frame _ _ rfl rfl rfl rfl
  · exact .refl s
  · exact .refl s

theorem State.strobeRequest_frame (s : State) (k : Fin 4) (e : Fin 64) : s.RunFrame (s.strobeRequest k e) :=
  .ite (s.setStrobe_frame _ _ rfl rfl) (s.setEntry_frame _ _)

theorem State.serveStrobe_frame (s : State) (e : Fin 64) (served : Bool) : s.RunFrame (s.serveStrobe e served) := by
  unfold State.serveStrobe
  split
  · exact .ite (s.strobeRequest_frame _ _) (.refl s)
  · exact .refl s

theorem State.insertItem_frame (s : State) (e : Fin 64) : s.RunFrame (s.insertItem e) :=
  .ite ((s.removeDue_frame e).trans (State.retireBroken_frame _ _ _)) (s.joinDue_frame e)

theorem State.follow_frame (s : State) (e : Fin 64) (served : Bool) : s.RunFrame (s.follow e served) :=
  ((s.handLevel_frame _ _).trans (State.serveStrobe_frame _ _ _)).trans (State.insertItem_frame _ _)

theorem State.startInEvent_frame (s : State) (e : Fin 64) (start : Instant) (unserved : Bool) :
    s.RunFrame (s.startInEvent e start unserved) :=
  (s.setEntry_frame _ _).trans (State.follow_frame _ _ _)

theorem State.startSuccessor_frame (s : State) (p y : Fin 64) (start : Instant) :
    s.RunFrame (s.startSuccessor p y start) :=
  (s.unlink_frame p y).trans (.ite (State.startInEvent_frame _ _ _ _) (.refl _))

theorem State.retireWell_frame (s : State) (e : Fin 64) (oc : EntryOutcome) (start : Instant) :
    s.RunFrame (s.retireWell e oc start) := by
  unfold State.retireWell
  split
  · exact (s.retireOne_frame _ _ _).trans (State.startSuccessor_frame _ _ _ _)
  · exact s.retireOne_frame _ _ _

theorem State.actStart_frame (s : State) (e : Fin 64) (r : Entry) (t : Instant) : s.RunFrame (s.actStart e r t) :=
  (s.setEntry_frame _ _).trans (State.follow_frame _ _ _)

theorem State.actInside_frame (s : State) (e : Fin 64) (r : Entry) (t : Instant) (o : Nat) :
    s.RunFrame (s.actInside e r t o) :=
  (s.setEntry_frame _ _).trans (State.follow_frame _ _ _)

theorem State.actNewCycle_frame (s : State) (e : Fin 64) (r : Entry) (t : Instant) : s.RunFrame (s.actNewCycle e r t) :=
  (s.setEntry_frame _ _).trans (State.follow_frame _ _ _)

theorem State.returnToPending_frame (s : State) (e : Fin 64) : s.RunFrame (s.returnToPending e) :=
  (s.setEntry_frame _ _).trans (State.handLevel_frame _ _ _)

theorem State.afterRun_frame (s : State) (e : Fin 64) (t : Instant) (served : Bool) : s.RunFrame (s.afterRun e t served) := by
  unfold State.afterRun
  refine .ite (s.retireWell_frame _ _ _) ?_
  split
  · exact s.returnToPending_frame e
  · exact (s.setEntry_frame _ _).trans (State.startInEvent_frame _ _ _ _)
  · exact s.retireWell_frame _ _ _

theorem State.actFinal_frame (s : State) (e : Fin 64) (r : Entry) (t : Instant) : s.RunFrame (s.actFinal e r t) :=
  ((s.setEntry_frame _ _).trans (State.serveStrobe_frame _ _ _)).trans (State.afterRun_frame _ _ _ _)

theorem State.actRunning_frame (s : State) (e : Fin 64) (t : Instant) : s.RunFrame (s.actRunning e t) :=
  .ite (s.actStart_frame _ _ _) (.ite (.ite (s.actFinal_frame _ _ _) (s.actNewCycle_frame _ _ _)) (s.actInside_frame _ _ _ _))

theorem State.takeAction_frame (s : State) (e : Fin 64) (t : Instant) : s.RunFrame (s.takeAction e t) := by
  refine (s.removeDue_frame e).trans ?_
  unfold State.takeAction
  dsimp only
  split
  · exact State.actStart_frame _ _ _ _
  · exact State.actRunning_frame _ _ _
  · exact State.actRunning_frame _ _ _
  · exact .refl _
  · exact .refl _
  · exact .refl _

/-! ### The walk -/

theorem State.triggerStart_frame (s : State) (n : Fin 8) (e : Fin 64) (mode : Mode) (stamp : Instant) :
    s.RunFrame (s.triggerStart n e mode stamp) := by
  unfold State.triggerStart
  cases mode
  · exact ((s.setEntry_frame _ _).trans (State.setSubs_frame _ _ _)).trans (State.insertItem_frame _ _)
  · exact (s.setEntry_frame _ _).trans (State.insertItem_frame _ _)

theorem State.retrigger_frame (s : State) (e : Fin 64) (policy : Retrigger) (stamp : Instant) :
    s.RunFrame (s.retrigger e policy stamp) := by
  unfold State.retrigger
  split
  · exact s.setEntry_frame _ _
  · exact s.startInEvent_frame _ _ _
  · exact .ite (s.setEntry_frame _ _) (s.setEntry_frame _ _)

theorem State.visit_frame (s : State) (n : Fin 8) (stamp : Instant) (e : Fin 64) : s.RunFrame (s.visit n stamp e) := by
  unfold State.visit
  repeat' split
  · exact s.triggerStart_frame _ _ _ _
  · exact s.retrigger_frame _ _ _
  · exact s.setEntry_frame _ _
  · exact .refl s
  · exact .refl s

theorem State.walk_frame (s : State) (n : Fin 8) (stamp : Instant) : s.RunFrame (s.walk n stamp) :=
  .foldl (fun s e => s.visit_frame n stamp e) _ s

/-! ### The dispatch -/

theorem State.overrunOne_frame (s : State) : s.RunFrame s.overrunOne := by
  unfold State.overrunOne
  split
  · exact (s.removeDue_frame _).trans (State.retireBroken_frame _ _ _)
  · exact .refl s

theorem State.overrunStep_frame (k : Nat) (s : State) : s.RunFrame (s.overrunStep k) := by
  induction k generalizing s with
  | zero => exact .refl s
  | succ k ih => exact s.overrunOne_frame.trans (ih _)

/-- A handing of the action step changes, outside the run, the dispatch alone. -/
theorem State.actionOne_frame (s : State) : (s.setDispatch s.actionOne.dispatch).RunFrame s.actionOne := by
  unfold State.actionOne
  split
  · have h := (s.setDispatch (some (DispatchWork.hand ‹_› ‹DueItem›.entry (s.entry ‹DueItem›.entry).successor))).takeAction_frame
      ‹DueItem›.entry ‹DueItem›.due
    rw [h.dispatch]
    exact h
  · exact ⟨⟨⟨rfl, rfl, rfl, rfl⟩, ⟨rfl, rfl, rfl⟩, rfl, rfl, rfl, rfl⟩, fun _ => ⟨rfl, rfl, rfl, rfl⟩, fun _ => rfl,
      fun _ => rfl, fun _ => id, rfl⟩

end Sys2Proof.Machine
end

