-- ==== Sys2Proof/Laws/Tick.lean ====
section
/-! SUPPORT. The tick event and its parts: what each part leaves, that a whole tick event leaves nothing owed, and that nothing
is left to take where nothing is owed. -/

namespace Sys2Proof.Machine

/-! ### Frames of the parts -/

theorem State.sameOutsideRuns_trans {s t u : State} (h : s.SameOutsideRuns t) (k : t.SameOutsideRuns u) :
    s.SameOutsideRuns u := by
  obtain ⟨⟨a1, a2, a3, a4⟩, ⟨b1, b2, b3⟩, c1, c2, c3, c4⟩ := h
  obtain ⟨⟨a1', a2', a3', a4'⟩, ⟨b1', b2', b3'⟩, c1', c2', c3', c4'⟩ := k
  exact ⟨⟨a1'.trans a1, a2'.trans a2, a3'.trans a3, a4'.trans a4⟩, ⟨b1'.trans b1, b2'.trans b2, b3'.trans b3⟩,
    c1'.trans c1, c2'.trans c2, c3'.trans c3, c4'.trans c4⟩

/-- The fields of two lines that are equal but for their lists. -/
theorem TriggerLine.fields_of_sameFilter {a b : TriggerLine}
    (h : { a with subs := [] } = { b with subs := [] }) :
    a.edge = b.edge ∧ a.sampleDivider = b.sampleDivider ∧ a.depth = b.depth ∧ a.sampleCount = b.sampleCount
      ∧ a.accepted = b.accepted ∧ a.runLength = b.runLength ∧ a.sampleDue = b.sampleDue := by
  cases a
  cases b
  simpa using h

/-- A sample taken leaves everything outside the runs and the lines as it was, and every line but its own with its filter;
its own owes no sample any more. -/
structure State.SampleFrame (s t : State) (n : Fin 8) : Prop where
  outside : s.SameOutsideRuns t
  lanes : s.SameLaneSettings t
  others : ∀ m : Fin 8, m ≠ n → { t.line m with subs := [] } = { s.line m with subs := [] }
  own : (t.line n).sampleDue = false
  divider : (t.line n).sampleDivider = (s.line n).sampleDivider ∧ (t.line n).depth = (s.line n).depth
    ∧ (t.line n).edge = (s.line n).edge ∧ (t.line n).sampleCount = (s.line n).sampleCount
  widths : ∀ k : Fin 4, (t.strobe k).width = (s.strobe k).width
  owed : ∀ k : Fin 4, (t.strobe k).countdownDue = true → (s.strobe k).countdownDue = true
  dispatch : t.dispatch = s.dispatch

/-- A write of the line's filter that owes no sample has the frame of a sample. -/
theorem State.setLine_sampleFrame (s : State) (n : Fin 8) (r : TriggerLine) (hd : r.sampleDue = false)
    (hr : r.sampleDivider = (s.line n).sampleDivider ∧ r.depth = (s.line n).depth ∧ r.edge = (s.line n).edge
      ∧ r.sampleCount = (s.line n).sampleCount) : s.SampleFrame (s.setLine n r) n := by
  refine ⟨⟨⟨rfl, rfl, rfl, rfl⟩, ⟨rfl, rfl, rfl⟩, rfl, rfl, rfl, rfl⟩, fun _ => ⟨rfl, rfl, rfl, rfl⟩, fun m hm => ?_, ?_, ?_,
    fun _ => rfl, fun _ => id, rfl⟩
  · rw [s.line_setLine_ne r hm]
  · rw [s.line_setLine_self]; exact hd
  · rw [s.line_setLine_self]; exact hr

/-- A run's events after a sample keep its frame. -/
theorem State.SampleFrame.run {s t u : State} {n : Fin 8} (h : s.SampleFrame t n) (k : t.RunFrame u) :
    s.SampleFrame u n := by
  obtain ⟨h4, h2, h3, h5, -, -, h1⟩ := TriggerLine.fields_of_sameFilter (k.filters n)
  exact ⟨State.sameOutsideRuns_trans h.outside k.outside,
    fun x => ⟨(k.lanes x).1.trans (h.lanes x).1, (k.lanes x).2.1.trans (h.lanes x).2.1,
      (k.lanes x).2.2.1.trans (h.lanes x).2.2.1, (k.lanes x).2.2.2.trans (h.lanes x).2.2.2⟩,
    fun m hm => (k.filters m).trans (h.others m hm), h1.trans h.own,
    ⟨h2.trans h.divider.1, h3.trans h.divider.2.1, h4.trans h.divider.2.2.1, h5.trans h.divider.2.2.2⟩,
    fun x => (k.widths x).trans (h.widths x), fun x hx => h.owed x (k.owed x hx), k.dispatch.trans h.dispatch⟩

/-- One write after another of the same line. -/
theorem State.setLine_setLine (s : State) (n : Fin 8) (r r' : TriggerLine) :
    (s.setLine n r).setLine n r' = s.setLine n r' := by
  simp [State.setLine]

/-- A sample owed is taken: the frame of a sample (R82, R83). -/
theorem State.takeSample_frame (s : State) (n : Fin 8) (level : Level) (h : (s.line n).sampleDue = true) :
    s.SampleFrame (s.takeSample n level) n := by
  unfold State.takeSample
  rw [if_pos h]
  unfold State.filterSample
  dsimp only
  split
  · rw [State.setLine_setLine, State.line_setLine_self]
    exact s.setLine_sampleFrame n _ rfl ⟨rfl, rfl, rfl, rfl⟩
  · split
    · rw [State.setLine_setLine, State.line_setLine_self]
      exact s.setLine_sampleFrame n _ rfl ⟨rfl, rfl, rfl, rfl⟩
    · split
      · unfold State.acceptChange
        simp only [State.setLine_setLine, State.line_setLine_self]
        have hf : s.SampleFrame (s.setLine n
            { s.line n with sampleDue := false, accepted := some level, runLength := 0 }) n :=
          s.setLine_sampleFrame n _ rfl ⟨rfl, rfl, rfl, rfl⟩
        split
        · exact hf.run (State.walk_frame _ _ _)
        · exact hf
      · rw [State.setLine_setLine, State.line_setLine_self]
        exact s.setLine_sampleFrame n _ rfl ⟨rfl, rfl, rfl, rfl⟩

/-- A countdown leaves all but its strobe line (R110). -/
theorem State.countdown_frame (s : State) (k : Fin 4) : s.RunFrame (s.countdown k) :=
  .ite (s.setStrobe_frame _ _ rfl rfl) (.refl s)

/-! ### Nothing owed, nothing taken -/

/-- A part taken where nothing is owed changes nothing (R2). -/
theorem State.takeUnit_of_tickWhole {s : State} (h : s.TickWhole) (u : TickUnit) : s.takeUnit u = s := by
  obtain ⟨hd, hl, hk⟩ := h
  cases u with
  | dispatch => simp [State.takeUnit, State.finishDispatch, hd]
  | sample n => simp [State.takeUnit, State.takeSample, hl n]
  | countdown k => simp [State.takeUnit, State.countdown, hk k]

/-- Parts taken where nothing is owed change nothing (R2). -/
theorem State.takeUnits_of_tickWhole {s : State} (h : s.TickWhole) (units : List TickUnit) : s.takeUnits units = s := by
  induction units with
  | nil => rfl
  | cons u rest ih => simpa only [State.takeUnits, List.foldl_cons, State.takeUnit_of_tickWhole h u] using ih

/-- A part with no tick event in progress has nothing to settle. -/
theorem State.settle_of_tickWhole {s : State} (h : s.TickWhole) : s.settle = s := State.takeUnits_of_tickWhole h _

/-! ### The dispatch -/

/-- The action step leaves, outside the runs, all but the dispatch as it was. -/
theorem State.actionStep_frame (k : Nat) (s : State) :
    (s.setDispatch (s.actionStep k).dispatch).RunFrame (s.actionStep k) := by
  induction k generalizing s with
  | zero => exact ⟨⟨⟨rfl, rfl, rfl, rfl⟩, ⟨rfl, rfl, rfl⟩, rfl, rfl, rfl, rfl⟩, fun _ => ⟨rfl, rfl, rfl, rfl⟩, fun _ => rfl,
      fun _ => rfl, fun _ => id, rfl⟩
  | succ k ih =>
    have h1 := s.actionOne_frame
    have h2 := ih s.actionOne
    exact ⟨State.sameOutsideRuns_trans h1.outside h2.outside,
      fun x => ⟨(h2.lanes x).1.trans (h1.lanes x).1, (h2.lanes x).2.1.trans (h1.lanes x).2.1,
        (h2.lanes x).2.2.1.trans (h1.lanes x).2.2.1, (h2.lanes x).2.2.2.trans (h1.lanes x).2.2.2⟩,
      fun n => (h2.filters n).trans (h1.filters n), fun x => (h2.widths x).trans (h1.widths x),
      fun x hx => h1.owed x (h2.owed x hx), rfl⟩

/-- The rest of a dispatch, where one is in progress: it is over, and outside the runs nothing else has changed (R70). -/
theorem State.finishDispatch_frame (s : State) : (s.setDispatch none).RunFrame s.finishDispatch := by
  unfold State.finishDispatch
  split
  · have h1 := State.overrunStep_frame s.due.length s
    have h2 := (s.overrunStep s.due.length).actionStep_frame Config.actionCapacity
    exact ⟨State.sameOutsideRuns_trans h1.outside h2.outside,
      fun x => ⟨(h2.lanes x).1.trans (h1.lanes x).1, (h2.lanes x).2.1.trans (h1.lanes x).2.1,
        (h2.lanes x).2.2.1.trans (h1.lanes x).2.2.1, (h2.lanes x).2.2.2.trans (h1.lanes x).2.2.2⟩,
      fun n => (h2.filters n).trans (h1.filters n), fun x => (h2.widths x).trans (h1.widths x),
      fun x hx => h1.owed x (h2.owed x hx), rfl⟩
  · next h =>
    have hd : s.dispatch = none := by simpa using h
    exact ⟨⟨⟨rfl, rfl, rfl, rfl⟩, ⟨rfl, rfl, rfl⟩, rfl, rfl, rfl, rfl⟩, fun _ => ⟨rfl, rfl, rfl, rfl⟩, fun _ => rfl,
      fun _ => rfl, fun _ => id, hd⟩

/-! ### A whole tick event leaves nothing owed -/

/-- A part of a tick event is not owed. -/
def State.NotOwed (s : State) : TickUnit → Prop
  | .dispatch => s.dispatch = none
  | .sample n => (s.line n).sampleDue = false
  | .countdown k => (s.strobe k).countdownDue = false

/-- Nothing owed, part by part. -/
theorem State.tickWhole_iff (s : State) : s.TickWhole ↔ ∀ u ∈ tickUnits, s.NotOwed u := by
  constructor
  · rintro ⟨hd, hl, hk⟩ u _
    cases u with
    | dispatch => exact hd
    | sample n => exact hl n
    | countdown k => exact hk k
  · intro h
    refine ⟨h .dispatch (by simp [tickUnits]), fun n => h (.sample n) ?_, fun k => h (.countdown k) ?_⟩ <;>
      simp [tickUnits]

/-- A run's events make no part owed. -/
theorem State.RunFrame.notOwed {s t : State} (h : s.RunFrame t) {u : TickUnit} (hu : s.NotOwed u) : t.NotOwed u := by
  cases u with
  | dispatch => exact h.dispatch.trans hu
  | sample n => exact (TriggerLine.fields_of_sameFilter (h.filters n)).2.2.2.2.2.2.trans hu
  | countdown k =>
    have := h.owed k
    simp only [State.NotOwed] at hu ⊢
    rw [← Bool.not_eq_true]
    intro c
    simp [this c] at hu

/-- Taking a part leaves that part not owed, and makes no other owed (R2). -/
theorem State.takeUnit_notOwed (s : State) (u v : TickUnit) (h : u = v ∨ s.NotOwed v) : (s.takeUnit u).NotOwed v := by
  cases u with
  | dispatch =>
    refine s.finishDispatch_frame.notOwed ?_
    rcases h with rfl | h
    · rfl
    · cases v with
      | dispatch => rfl
      | sample n => exact h
      | countdown k => exact h
  | sample n =>
    by_cases hs : (s.line n).sampleDue = true
    · have hf := s.takeSample_frame n (s.trgLevel n) hs
      cases v with
      | dispatch => exact hf.dispatch.trans (h.resolve_left (by simp))
      | sample m =>
        by_cases hm : m = n
        · subst hm; exact hf.own
        · have := h.resolve_left (by simpa using fun c => hm c.symm)
          exact (TriggerLine.fields_of_sameFilter (hf.others m hm)).2.2.2.2.2.2.trans this
      | countdown k =>
        have hv := h.resolve_left (by simp)
        simp only [State.NotOwed] at hv ⊢
        rw [← Bool.not_eq_true]
        intro c
        simp [hf.owed k c] at hv
    · have hn : s.takeUnit (.sample n) = s := by simp [State.takeUnit, State.takeSample, hs]
      rw [hn]
      rcases h with rfl | h
      · simpa [State.NotOwed] using hs
      · exact h
  | countdown k =>
    rcases h with rfl | h
    · change ((s.countdown k).strobe k).countdownDue = false
      rw [s.countdown_strobe]
      split
      · rfl
      · next c => simpa using c
    · exact (s.countdown_frame k).notOwed h

/-- Parts that have been taken, or were not owed, are not owed after a list of parts is taken (R2). -/
theorem State.takeUnits_notOwed (units : List TickUnit) (s : State) (v : TickUnit) (h : v ∈ units ∨ s.NotOwed v) :
    (s.takeUnits units).NotOwed v := by
  induction units generalizing s with
  | nil => simpa [State.takeUnits] using h
  | cons u rest ih =>
    refine ih (s.takeUnit u) ?_
    rcases h with h | h
    · rcases List.mem_cons.mp h with rfl | h
      · exact .inr (s.takeUnit_notOwed _ _ (.inl rfl))
      · exact .inl h
    · exact .inr (s.takeUnit_notOwed _ _ (.inr h))

/-- What is left of a tick event, once settled, is nothing (R2). -/
theorem State.settle_tickWhole (s : State) : s.settle.TickWhole :=
  (State.tickWhole_iff _).mpr fun _ hu => State.takeUnits_notOwed _ _ _ (.inl hu)

/-! ### The beginning of a tick -/

/-- A fold that writes each place of a list once reads, at a place, the write made there. -/
theorem State.foldl_setLine (f : TriggerLine → TriggerLine) (l : List (Fin 8)) (hl : l.Nodup) (s : State) (x : Fin 8) :
    (l.foldl (fun s n => s.setLine n (f (s.line n))) s).line x = if x ∈ l then f (s.line x) else s.line x := by
  induction l generalizing s with
  | nil => simp
  | cons a l ih =>
    rw [List.nodup_cons] at hl
    rw [List.foldl_cons, ih hl.2, State.line_setLine]
    by_cases hx : x = a
    · subst hx; simp [hl.1]
    · simp [hx]

/-- A fold that writes each strobe line of a list once reads, at a line, the write made there. -/
theorem State.foldl_setStrobe (f : StrobeLine → StrobeLine) (l : List (Fin 4)) (hl : l.Nodup) (s : State) (x : Fin 4) :
    (l.foldl (fun s k => s.setStrobe k (f (s.strobe k))) s).strobe x = if x ∈ l then f (s.strobe x) else s.strobe x := by
  induction l generalizing s with
  | nil => simp
  | cons a l ih =>
    rw [List.nodup_cons] at hl
    rw [List.foldl_cons, ih hl.2, State.strobe_setStrobe]
    by_cases hx : x = a
    · subst hx; simp [hl.1]
    · simp [hx]

/-- Every line counts a tick event (R81). -/
theorem State.countLines_line (s : State) (n : Fin 8) : s.countLines.line n = (s.line n).count := by
  unfold State.countLines
  rw [State.foldl_setLine _ _ (List.nodup_finRange 8)]
  simp

/-- Counting a tick event changes the lines alone. -/
theorem State.countLines_eq (s : State) : ∃ ls, s.countLines = { s with lines := ls } := by
  unfold State.countLines
  generalize List.finRange 8 = l
  induction l generalizing s with
  | nil => exact ⟨s.lines, rfl⟩
  | cons a l ih =>
    obtain ⟨ls, h⟩ := ih (s.setLine a (s.line a).count)
    exact ⟨ls, h.trans rfl⟩

/-- A pulse in progress before the tick event owes a countdown in it (R110). -/
theorem State.oweCountdowns_strobe (s : State) (k : Fin 4) :
    s.oweCountdowns.strobe k = { s.strobe k with countdownDue := decide (0 < (s.strobe k).remaining) } := by
  unfold State.oweCountdowns
  rw [State.foldl_setStrobe (fun r => { r with countdownDue := decide (0 < r.remaining) }) _ (List.nodup_finRange 4)]
  simp

/-- Owing the countdowns changes the strobe lines alone. -/
theorem State.oweCountdowns_eq (s : State) : ∃ ks, s.oweCountdowns = { s with strobes := ks } := by
  unfold State.oweCountdowns
  generalize List.finRange 4 = l
  induction l generalizing s with
  | nil => exact ⟨s.strobes, rfl⟩
  | cons a l ih =>
    obtain ⟨ks, h⟩ := ih (s.setStrobe a { s.strobe a with countdownDue := decide (0 < (s.strobe a).remaining) })
    exact ⟨ks, h.trans rfl⟩

/-- What the end of a tick changes: `now`, the tick in progress, the pins TRG, the dispatch, the counts of the lines and what
the strobe lines owe (R1, R2). -/
theorem State.beginTick_eq (s : State) (levels : BitVec 8) : ∃ ls ks, s.beginTick levels =
    { s with
      now := s.now + 1
      tickPhase := 0
      tickLength := s.divider
      pins := { s.pins with trg := levels }
      dispatch := some { handed := [], passed := [] }
      lines := ls
      strobes := ks } := by
  unfold State.beginTick
  generalize hu : State.setDispatch _ _ = u
  obtain ⟨ls, hls⟩ := u.countLines_eq
  obtain ⟨ks, hks⟩ := u.countLines.oweCountdowns_eq
  exact ⟨ls, ks, by rw [hks, hls, ← hu]; rfl⟩

/-- A tick event takes the parts of its order one after another (R2). -/
theorem State.tick_append (s : State) (levels : BitVec 8) (order : List TickUnit) (u : TickUnit) :
    s.tick levels (order ++ [u]) = (s.tick levels order).takeUnit u := by
  simp [State.tick, State.takeUnits]

end Sys2Proof.Machine
end

