-- ==== Sys2Proof/Laws/Link.lean ====
section
/-! SUPPORT. The link: what an execution's end and a request command come to on a steady part. -/

namespace Sys2Proof.Machine

/-- No request waits and none is answered where no execution is in progress. -/
theorem Buffer.not_executing_iff (b : Buffer) : b.isExecuting = false ↔ ∀ x, b ≠ .executing x := by
  cases b <;> simp [Buffer.isExecuting]

/-- EXECUTION_END does nothing where no execution is in progress (R145, R146). -/
theorem State.endExecution_of_not_executing {s : State} (h : s.link.buffer.isExecuting = false) :
    s.endExecution = s := by
  unfold State.endExecution
  split
  · next hb => simp [hb, Buffer.isExecuting] at h
  · next hb => simp [hb, Buffer.isExecuting] at h
  · rfl
  · rfl

/-- A request on a steady part: its owner's answer, in the buffer, on the state that its owner leaves (R146). -/
theorem State.request_of_steady {s : State} (h : s.Steady) (i : Instr) (own : State → State × Answer) :
    s.request i own = (own s).1.setBuffer (.ready (responseFrame i.tag (own s).2)) := by
  obtain ⟨hr, ht, hb⟩ := h
  unfold State.request State.whenRunning
  rw [hr, if_neg Bool.false_ne_true]
  dsimp only
  rw [if_neg fun c => (Buffer.not_executing_iff _).mp hb _ c]
  unfold State.wholeRequest
  rw [State.endExecution_of_not_executing hb, State.settle_of_tickWhole ht]

/-- A request command does nothing while RESET_N is low (R36, R153). -/
theorem State.request_of_inReset {s : State} (h : s.inReset = true) (i : Instr) (own : State → State × Answer) :
    s.request i own = s := by
  simp [State.request, State.whenRunning, h]

/-- A frame is as long as its payload and four bytes more (R141). -/
theorem length_frameOf (code tag : Byte) (payload : List Byte) : (frameOf code tag payload).length = payload.length + 4 := by
  simp [frameOf]

/-- A request is refused BAD_ENTRY first (R14, R154). -/
theorem withEntry_of_large {b : Byte} (h : 64 ≤ b.toNat) (s : State) (f : Fin 64 → State × Answer) :
    withEntry b s f = (s, .refusal .badEntry) := by
  simp [withEntry, entryOf, Nat.not_lt.mpr h]

/-- A request that names an entry reaches it (R14). -/
theorem withEntry_of_eq {b : Byte} {e : Fin 64} (h : e.val = b.toNat) (s : State) (f : Fin 64 → State × Answer) :
    withEntry b s f = f e := by
  have hb : b.toNat < 64 := h ▸ e.isLt
  have he : (⟨b.toNat, hb⟩ : Fin 64) = e := Fin.ext h.symm
  simp [withEntry, entryOf, hb, he]

end Sys2Proof.Machine
end

