-- ==== Sys2Proof/Laws/Trips.lean ====
section
/-! SUPPORT. Trip protection, and the requests that write every lane or line: what each leaves, place by place. -/

namespace Sys2Proof.Machine

/-- A fold that writes each lane of a list once reads, at a lane, the write made there. -/
theorem State.foldl_setLane (f : Lane → Lane) (l : List (Fin 16)) (hl : l.Nodup) (s : State) (x : Fin 16) :
    (l.foldl (fun s n => s.setLane n (f (s.lane n))) s).lane x = if x ∈ l then f (s.lane x) else s.lane x := by
  induction l generalizing s with
  | nil => simp
  | cons a l ih =>
    rw [List.nodup_cons] at hl
    rw [List.foldl_cons, ih hl.2, State.lane_setLane]
    by_cases hx : x = a
    · subst hx; simp [hl.1]
    · simp [hx]

/-- A fold of lane writes changes the lanes alone. -/
theorem State.foldl_setLane_eq (f : Lane → Lane) (l : List (Fin 16)) (s : State) :
    ∃ ls, l.foldl (fun s n => s.setLane n (f (s.lane n))) s = { s with lanes := ls } := by
  induction l generalizing s with
  | nil => exact ⟨s.lanes, rfl⟩
  | cons a l ih =>
    obtain ⟨ls, h⟩ := ih (s.setLane a (f (s.lane a)))
    exact ⟨ls, h.trans rfl⟩

/-! ### The effect of a trip (R131, R132) -/

/-- A lane is in a group exactly when its bit is set (R127). -/
theorem mem_lanesOf (g : LaneGroup) (l : Fin 16) : l ∈ lanesOf g ↔ g.getLsbD l.val = true := by
  simp [lanesOf]

/-- A lane after the lane step of a trip (R131). -/
theorem State.laneStep_lane (s : State) (x : Trip) (l : Fin 16) :
    (s.laneStep x).lane l = if x.group.getLsbD l.val = true then (s.lane l).tripped x.source else s.lane l := by
  unfold State.laneStep
  rw [State.foldl_setLane (fun l => l.tripped x.source) _
    (show (lanesOf x.group).Nodup from (List.nodup_finRange 16).filter _)]
  simp only [← mem_lanesOf]

/-- The lane step changes the lanes alone (R131). -/
theorem State.laneStep_eq (s : State) (x : Trip) : ∃ ls, s.laneStep x = { s with lanes := ls } :=
  State.foldl_setLane_eq (fun l => l.tripped x.source) _ s

/-- A lane after the lane steps of an event's trips: it takes each trip whose group holds it (R131, R133). -/
theorem State.laneSteps_lane (trips : List Trip) (s : State) (l : Fin 16) :
    (trips.foldl State.laneStep s).lane l =
      trips.foldl (fun r x => if x.group.getLsbD l.val = true then r.tripped x.source else r) (s.lane l) := by
  induction trips generalizing s with
  | nil => rfl
  | cons x trips ih => rw [List.foldl_cons, List.foldl_cons, ih, State.laneStep_lane]

/-- The lane steps of an event's trips change the lanes alone (R131). -/
theorem State.laneSteps_eq (trips : List Trip) (s : State) : ∃ ls, trips.foldl State.laneStep s = { s with lanes := ls } := by
  induction trips generalizing s with
  | nil => exact ⟨s.lanes, rfl⟩
  | cons x trips ih =>
    obtain ⟨ls, h⟩ := s.laneStep_eq x
    obtain ⟨ls', h'⟩ := ih (s.laneStep x)
    exact ⟨ls', by rw [List.foldl_cons, h', h]⟩

/-- The entry step has the frame of retirements (R132). -/
theorem State.entryStep_frame (s : State) (recorded : List (Fin 64)) : s.RunFrame (s.entryStep recorded) :=
  (State.RunFrame.foldl (fun s e => s.retireOne_frame e .tripped none) recorded s).trans
    (State.RunFrame.foldl (fun s e => s.breakBehind_frame e) recorded _)

/-- What the trips of an event leave outside the runs is what their lane steps leave (R131, R132). -/
theorem State.takeTrips_frame (s : State) (trips : List Trip) :
    (trips.foldl State.laneStep s).RunFrame (s.takeTrips trips) := State.entryStep_frame _ _

/-- What the trips of an event leave outside the runs and the lanes is what was there (R131, R132). -/
theorem State.takeTrips_outside (s : State) (trips : List Trip) : s.SameOutsideRuns (s.takeTrips trips) := by
  obtain ⟨ls, h⟩ := State.laneSteps_eq trips s
  have ho := (s.takeTrips_frame trips).outside
  rw [h] at ho
  exact ho

/-- An event without trips changes nothing. -/
@[simp] theorem State.takeTrips_nil (s : State) : s.takeTrips [] = s := by
  have h : (List.finRange 64).filter (s.recordedBy []) = [] := List.filter_eq_nil_iff.mpr fun e _ => by simp [State.recordedBy]
  rw [State.takeTrips, h]
  rfl

/-- A lane tripped by two sources of one event is the same whichever comes first (R133). -/
theorem Lane.tripped_comm (l : Lane) (x y : TripId) : (l.tripped x).tripped y = (l.tripped y).tripped x := by
  obtain ⟨p, sl, o, c, h, f, ⟨a, b, d⟩⟩ := l
  cases x <;> cases y <;> cases a <;> cases b <;> cases d <;> rfl

/-- Two states that differ in their lanes alone, and in none of them, are one. -/
theorem State.eq_of_lanes {s t u : State} (ht : ∃ ls, t = { s with lanes := ls }) (hu : ∃ ls, u = { s with lanes := ls })
    (h : ∀ l : Fin 16, t.lane l = u.lane l) : t = u := by
  obtain ⟨ls, rfl⟩ := ht
  obtain ⟨ls', rfl⟩ := hu
  congr 1
  exact Vector.ext fun i hi => h ⟨i, hi⟩

/-- Every entry, lane and `retired at` ends the same in whatever order the trips of an event come (R133). -/
theorem State.takeTrips_perm (s : State) {trips trips' : List Trip} (h : trips.Perm trips') :
    s.takeTrips trips = s.takeTrips trips' := by
  have hr : s.recordedBy trips = s.recordedBy trips' := by
    funext e
    rw [Bool.eq_iff_iff]
    simp only [State.recordedBy, List.any_eq_true, h.mem_iff]
  have hl : trips.foldl State.laneStep s = trips'.foldl State.laneStep s := by
    refine h.foldl_eq' (fun x _ y _ u => State.eq_of_lanes (State.laneSteps_eq [x, y] u) (State.laneSteps_eq [y, x] u) ?_) s
    intro l
    simp only [State.laneStep_lane]
    split <;> split <;> simp [Lane.tripped_comm]
  rw [State.takeTrips, State.takeTrips, hr, hl]

/-- Outside the runs and the lanes a trip leaves what was there (R131, R132). -/
theorem State.tripGroup_outside (s : State) (src : TripId) (g : LaneGroup) : s.SameOutsideRuns (s.tripGroup src g) :=
  s.takeTrips_outside _

/-! ### The filters (R127 to R129) -/

/-- A new record that brings no trip is all that changes (R129). -/
theorem State.changeSource_eq (s : State) (i : TripInput) (r : TripSource) (h : ¬ ((s.trip i).state = .quiet ∧ r.state = .held)) :
    s.changeSource i r = s.setTrip i r := by
  simp [State.changeSource, State.tripOf, h]

/-- A QUIET source that becomes HELD trips its group (R129). -/
theorem State.changeSource_trips (s : State) (i : TripInput) (r : TripSource) (hq : (s.trip i).state = .quiet)
    (hh : r.state = .held) : s.changeSource i r = (s.setTrip i r).tripGroup (tripIdOf i) r.group := by
  simp [State.changeSource, State.tripOf, State.tripGroup, hq, hh]

/-! ### The lanes of a trip -/

/-- A lane of the group after a trip carries the source and shows its safe level (R131). -/
theorem Lane.tripped_presentLevel (l : Lane) (src : TripId) : (l.tripped src).presentLevel = l.safeLevel := by
  have hb : ∀ t : TrippedBy, (t.add src).any = true := by
    rintro ⟨a, b, c⟩
    cases src <;> simp [TrippedBy.add, TrippedBy.any]
  unfold Lane.tripped
  split <;> simp [Lane.presentLevel, hb, Lane.unclaimed]

/-! ### The clear (R136) -/

/-- A lane after a source has left every set (R136). -/
theorem State.releaseTrip_lane (s : State) (src : TripId) (x : Fin 16) :
    (s.releaseTrip src).lane x = { s.lane x with trippedBy := (s.lane x).trippedBy.remove src } := by
  unfold State.releaseTrip
  rw [State.foldl_setLane (fun l => { l with trippedBy := l.trippedBy.remove src }) _ (List.nodup_finRange 16)]
  simp

/-- The clear changes the lanes alone (R136). -/
theorem State.releaseTrip_eq (s : State) (src : TripId) : ∃ ls, s.releaseTrip src = { s with lanes := ls } :=
  State.foldl_setLane_eq (fun l => { l with trippedBy := l.trippedBy.remove src }) _ s

/-! ### SOFT_RESET (R97, R108, R152) -/

/-- A lane after SOFT_RESET (R108). -/
theorem State.clearClaims_lane (s : State) (x : Fin 16) : s.clearClaims.lane x = (s.lane x).unclaimed := by
  unfold State.clearClaims
  rw [State.foldl_setLane Lane.unclaimed _ (List.nodup_finRange 16)]
  simp

/-- The clearing of claims changes the lanes alone (R108). -/
theorem State.clearClaims_eq (s : State) : ∃ ls, s.clearClaims = { s with lanes := ls } :=
  State.foldl_setLane_eq Lane.unclaimed _ s

/-- A line after SOFT_RESET (R97). -/
theorem State.clearSubscriptions_line (s : State) (x : Fin 8) :
    s.clearSubscriptions.line x = { s.line x with subs := [] } := by
  unfold State.clearSubscriptions
  rw [State.foldl_setLine (fun r => { r with subs := [] }) _ (List.nodup_finRange 8)]
  simp

end Sys2Proof.Machine
end

