-- ==== Sys2Proof/Laws/Clock.lean ====
section
/-! SUPPORT. One CLK edge: what each of its parts leaves outside the runs, and that no part is overtaken where no execution is
in progress. -/

namespace Sys2Proof.Machine

/-! ### The parts -/

theorem State.sameOutsideRuns_refl (s : State) : s.SameOutsideRuns s :=
  ⟨⟨rfl, rfl, rfl, rfl⟩, ⟨rfl, rfl, rfl⟩, rfl, rfl, rfl, rfl⟩

/-- A part of a tick event changes the runs alone (R2). -/
theorem State.takeUnit_outside (s : State) (u : TickUnit) : s.SameOutsideRuns (s.takeUnit u) := by
  cases u with
  | dispatch => exact s.finishDispatch_frame.outside
  | sample n =>
    by_cases h : (s.line n).sampleDue = true
    · exact (s.takeSample_frame n _ h).outside
    · have hs : s.takeUnit (.sample n) = s := by simp [State.takeUnit, State.takeSample, h]
      rw [hs]
      exact s.sameOutsideRuns_refl
  | countdown k => exact (s.countdown_frame k).outside

/-- The parts of a tick event change the runs alone (R2). -/
theorem State.takeUnits_outside (units : List TickUnit) (s : State) : s.SameOutsideRuns (s.takeUnits units) := by
  induction units generalizing s with
  | nil => exact s.sameOutsideRuns_refl
  | cons u units ih => exact State.sameOutsideRuns_trans (s.takeUnit_outside u) (ih _)

/-- The whole of a tick event leaves the next tick begun, and the trip unit and the link as they were (R1, R2). -/
theorem State.tick_outside (s : State) (levels : BitVec 8) (order : List TickUnit) :
    let t := s.tick levels order
    (t.now = s.now + 1 ∧ t.divider = s.divider ∧ t.tickLength = s.divider ∧ t.tickPhase = 0)
      ∧ s.SameTrips t ∧ t.link = s.link ∧ t.pending = s.pending ∧ t.clkEdges = s.clkEdges := by
  dsimp only
  unfold State.tick
  have hs : s.SameOutsideRuns s.settle := State.takeUnits_outside tickUnits s
  generalize s.settle = u at hs ⊢
  obtain ⟨ls, ks, h⟩ := u.beginTick_eq levels
  have ho := State.takeUnits_outside order (u.beginTick levels)
  generalize (u.beginTick levels).takeUnits order = w at ho ⊢
  rw [h] at ho
  obtain ⟨⟨a1, a2, -, -⟩, ⟨b1, b2, b3⟩, -, c2, c3, c4⟩ := hs
  obtain ⟨⟨d1, d2, d3, d4⟩, ⟨e1, e2, e3⟩, -, f2, f3, f4⟩ := ho
  exact ⟨⟨d1.trans (congrArg (· + 1) a1), d2.trans a2, d3.trans a2, d4⟩, ⟨e1.trans b1, e2.trans b2, e3.trans b3⟩,
    f2.trans c2, f3.trans c3, f4.trans c4⟩

/-- The timebase's part of an edge: a period counted, or the tick ended (R1). -/
theorem State.clkTimebase_outside (s : State) (order : List TickUnit) :
    let t := s.clkTimebase order
    (if s.tickPhase + 1 < s.tickLength then
        t.now = s.now ∧ t.tickPhase = s.tickPhase + 1 ∧ t.tickLength = s.tickLength
      else t.now = s.now + 1 ∧ t.tickPhase = 0 ∧ t.tickLength = s.divider)
      ∧ t.divider = s.divider ∧ s.SameTrips t ∧ t.link = s.link ∧ t.pending = s.pending ∧ t.clkEdges = s.clkEdges := by
  dsimp only
  unfold State.clkTimebase
  by_cases h : s.tickLength ≤ s.tickPhase + 1
  · rw [if_pos h, if_neg (Nat.not_lt.mpr h)]
    obtain ⟨⟨a, b, c, d⟩, e⟩ := s.tick_outside s.pins.trg order
    exact ⟨⟨a, d, c⟩, b, e⟩
  · rw [if_neg h, if_pos (Nat.lt_of_not_le h)]
    exact ⟨⟨rfl, rfl, rfl⟩, rfl, ⟨rfl, rfl, rfl⟩, rfl, rfl, rfl⟩

/-- A sample of a trip input leaves the timebase, the link and the queue as they were (R128, R131, R132). -/
theorem State.sampleTripPin_outside (s : State) (i : TripInput) (level : Level) :
    let t := s.sampleTripPin i level
    s.SameTimebase t ∧ t.link = s.link ∧ t.pending = s.pending ∧ t.clkEdges = s.clkEdges := by
  obtain ⟨a, -, -, c⟩ := ((s.setTripPin i level).setTrip i ((s.trip i).atEdge level)).takeTrips_outside
    ((s.setTripPin i level).tripOf i ((s.trip i).atEdge level))
  cases i <;> exact ⟨a, c⟩

/-- An edge changes no execution where none is in progress (R145). -/
theorem State.clkExecution_of_not_executing {s : State} (h : s.link.buffer.isExecuting = false) : s.clkExecution = s := by
  unfold State.clkExecution
  split
  · next hb => exact absurd hb ((Buffer.not_executing_iff _).mp h _)
  · rfl
  · rfl

/-- A source keeps its filter in its own configuration exactly while it is enabled (R137). -/
theorem TripSource.keepsFilter_self (r : TripSource) : r.keepsFilter r = r.enabled := by
  simp [TripSource.keepsFilter]

/-- No request is taken on an edge where no execution is in progress (R145). -/
theorem State.tripEndsHere_of_not_executing {s : State} (h : s.link.buffer.isExecuting = false) : s.tripEndsHere = none := by
  unfold State.tripEndsHere
  split
  · next hb => exact absurd hb ((Buffer.not_executing_iff _).mp h _)
  · rfl

/-- The samples of an edge on which no TRIP is taken leave the timebase, the link and the queue as they were (R128, R131,
R132). -/
theorem State.clkTrips_outside {s : State} (h : s.tripEndsHere = none) (restarted : List TripInput) :
    let t := s.clkTrips restarted
    s.SameTimebase t ∧ t.link = s.link ∧ t.pending = s.pending ∧ t.clkEdges = s.clkEdges := by
  dsimp only
  simp only [State.clkTrips, h]
  obtain ⟨a, -, -, c⟩ := ((s.setTrip .a (s.sourceAtEdge restarted .a)).setTrip .b
    (s.sourceAtEdge restarted .b)).takeTrips_outside
      (s.tripOf .a (s.sourceAtEdge restarted .a) ++ s.tripOf .b (s.sourceAtEdge restarted .b))
  exact ⟨a, c⟩

/-! ### The edge -/

/-- No part of an edge is overtaken, and no filter restarted, where no execution is in progress (R10, R133, R137). -/
theorem State.overtaken_of_not_executing {s : State} (h : s.link.buffer.isExecuting = false) (u : Config.EdgeUnit) :
    s.overtaken u = [] ∧ s.restartedBy u = [] := by
  have ha : s.abandonsTick = false := by
    unfold State.abandonsTick
    split
    · next hb => exact absurd hb ((Buffer.not_executing_iff _).mp h _)
    · rfl
  have hr : ∀ i, s.restartsFilter i = false := fun i => by
    rw [State.restartsFilter, State.clkExecution_of_not_executing h, TripSource.keepsFilter_self]
    simp
  cases u <;> simp [State.overtaken, State.restartedBy, State.tripEndsHere_of_not_executing h, ha, hr]

/-- A part of an edge leaves the link as it was where no execution is in progress (R145). -/
theorem State.clkUnit_link_of_not_executing {s : State} (h : s.link.buffer.isExecuting = false) (order : List TickUnit)
    (restarted : List TripInput) (u : Config.EdgeUnit) : (s.clkUnit order restarted u).link = s.link := by
  have hn := State.tripEndsHere_of_not_executing h
  cases u with
  | timebase => exact (s.clkTimebase_outside order).2.2.2.1
  | tripSamples => exact (State.clkTrips_outside hn restarted).2.1
  | execution => simp [State.clkUnit, hn, State.clkExecution_of_not_executing h]

/-- Where no execution is in progress an edge is its parts, one after another (R1, R128). -/
theorem State.clkPartsIn_of_not_executing {s : State} (h : s.link.buffer.isExecuting = false) (order : List Config.EdgeUnit)
    (tickOrder : List TickUnit) :
    s.clkPartsIn order tickOrder = (order.foldl (fun s u => s.clkUnit tickOrder [] u) s).beginsWithDivider := by
  unfold State.clkPartsIn
  congr 1
  induction order generalizing s with
  | nil => rfl
  | cons u order ih =>
    obtain ⟨ho, hr⟩ := State.overtaken_of_not_executing h u
    have ht : EdgeWork.take tickOrder { state := s, overtaken := [], restarted := [] } u =
        { state := s.clkUnit tickOrder [] u, overtaken := [], restarted := [] } := by
      simp [EdgeWork.take, ho, hr]
    rw [List.foldl_cons, ht, List.foldl_cons]
    exact ih (by rw [State.clkUnit_link_of_not_executing h]; exact h)

end Sys2Proof.Machine
end

