-- ==== Sys2Proof/Laws/Records.lean ====
section
/-! SUPPORT. The records of an entry: cycle geometry in closed form, staged values, counters, the record of a retirement. -/

namespace Sys2Proof.Machine

/-! ### Cycle geometry (R18, R38, R39, R40, R44, R46) -/

/-- The check of a programme is R18. -/
theorem Programme.valid_iff (p : Programme) : p.valid = true ↔ p.Lawful := by
  unfold Programme.valid Programme.Lawful Programme.repeats Programme.inactiveAt
  by_cases h : p.count = 1 <;> simp [h]

/-- The offset at which a cycle ends (R44). -/
theorem Programme.endAt_eq (p : Programme) : p.endAt = p.lastOffset := by
  unfold Programme.endAt Programme.lastOffset Programme.repeats Programme.inactiveAt
  by_cases h : p.count = 1 <;> simp [h]

/-- The phase after an instant (R40). -/
theorem Programme.phaseAt_eq (p : Programme) (o : Nat) : p.phaseAt o = p.phaseOf o := by
  unfold Programme.phaseAt Programme.phaseOf Programme.inactiveAt
  by_cases h : o < p.delay.toNat
  · rw [if_pos h, if_neg (Nat.not_le.mpr h)]
  · by_cases h2 : o < p.delay.toNat + p.width.toNat
    · rw [if_neg h, if_pos h2, if_pos (Nat.not_lt.mp h)]
    · rw [if_neg h, if_neg h2, if_pos (Nat.not_lt.mp h)]

/-- The next instant of a cycle, of a programme that is valid, before its end (R39). -/
theorem Programme.nextOffset_eq {p : Programme} (h : p.Lawful) {o : Nat} (ho : o < p.lastOffset) :
    p.nextOffset o = p.offsetAfter o := by
  unfold Programme.Lawful at h
  unfold Programme.lastOffset at ho
  unfold Programme.nextOffset Programme.candidates Programme.offsetAfter Programme.repeats Programme.inactiveAt
  by_cases hc : p.count = 1
  · rw [if_pos hc] at h ho
    simp only [hc, ne_eq, not_true_eq_false, decide_false, Bool.false_eq_true, if_false, leastAbove]
    split <;> simp
  · rw [if_neg hc] at h ho
    simp only [hc, ne_eq, not_false_eq_true, decide_true, if_true, leastAbove]
    by_cases h1 : o < p.delay.toNat
    · have h2 : o < p.delay.toNat + p.width.toNat := by omega
      simp [h1, h2, ho]
      omega
    · by_cases h2 : o < p.delay.toNat + p.width.toNat
      · simp [h1, h2, ho]
        omega
      · simp [h1, h2, ho]

/-- Whether the strobe point of an entry is served (R46). -/
theorem Entry.serves_eq (r : Entry) (o : Nat) (started : Bool) : r.serves o started = r.prog.pointServed o started := by
  unfold Entry.serves Programme.pointServed
  rcases h : r.prog.strobe with _ | ⟨l, p⟩
  · rfl
  · cases p <;> rfl

/-- The programme after staged values are taken (R45). -/
theorem Entry.takeStaged_prog (r : Entry) : r.takeStaged.prog = r.progWithStaged := rfl

/-- The skew recorded by an action (R7, R16). -/
theorem Entry.raiseSkew_eq (r : Entry) (now t : Instant) :
    (r.raiseSkew (skewOf now t)).worstSkew = r.skewAfter now t := by
  simp [Entry.raiseSkew, Entry.skewAfter, skewOf, Nat.min_comm]

/-- The level called for in a phase (R41). -/
theorem Entry.callLevel_eq (r : Entry) : r.callLevel = r.phase.call := by
  unfold Entry.callLevel
  cases r.phase <;> rfl

/-! ### Counters (R16, R44, R50) -/

/-- A missed trigger, as a number (R16). -/
theorem Entry.missTrigger_eq (r : Entry) :
    r.missTrigger = { r with missedTriggers := BitVec.ofNat 8 (min 255 (r.missedTriggers.toNat + 1)) } := by
  simp [Entry.missTrigger, satSucc_eq_min]

/-! ### The record of a retirement (R27) -/

/-- A retired record whose successor link is gone is what R27 says. -/
theorem Entry.retired_as (r : Entry) (oc : EntryOutcome) (t : Instant) :
    r.RetiredAs { r.retired oc t with successor := none } oc t := by
  unfold Entry.RetiredAs Entry.retired Entry.discardHeld Entry.discardStaged
  rw [show (255 : Nat) = 2 ^ 8 - 1 from rfl, ← satSucc_eq_min]
  rcases hs : decide (r.staged = Staged.none) with _ | _ <;> rcases hh : r.heldTrigger with _ | t' <;>
    simp_all [Entry.missTrigger]

/-- A retirement leaves the programme and the start part as they were (R27). -/
theorem Entry.retired_kept (r : Entry) (oc : EntryOutcome) (t : Instant) :
    (r.retired oc t).prog = r.prog ∧ (r.retired oc t).start = r.start ∧ (r.retired oc t).successor = r.successor := by
  unfold Entry.retired Entry.discardHeld Entry.discardStaged
  repeat' split
  all_goals exact ⟨rfl, rfl, rfl⟩

end Sys2Proof.Machine
end

