-- ==== Sys2Proof/Tests/Slice0.lean ====
section
/-! SUPPORT. Tests of the model against values taken from the manual's rules and worked tables, and, for every statement of
Certificates/Slice0/Obligations.lean that has hypotheses, a state and operands that meet them. -/

namespace Sys2Proof.Tests

set_option Elab.async false

open Sys2Proof.Machine

/-! ### Small states -/

/-- What a command leaves has a property; false where it gives no next state. -/
def after (c : Instr) (s : State) (p : State → Bool) : Bool :=
  match exec c s with
  | .next t => p t
  | .fault _ | .refused _ => false

/-- The part right after reset. -/
abbrev base : State := State.reset

/-- The part while RESET_N is held low. -/
def held : State := { base with pins := { Pins.reset with resetN := .low } }

/-- A programme without lane and strobe. -/
def prog (d w p n : Nat) : Programme :=
  { Programme.cleared with
    delay := BitVec.ofNat 24 d, width := BitVec.ofNat 24 w, period := BitVec.ofNat 24 p, count := BitVec.ofNat 16 n }

/-- A programme on a lane. -/
def progOn (l : Fin 16) (d w p n : Nat) : Programme := { prog d w p n with lane := some l }

/-- An entry in a state, with a programme and a start. -/
def inState (st : EntryState) (p : Programme) (start : Start) : Entry :=
  { Entry.free with state := st, prog := p, start := some start }

/-- An IDLE entry with a programme. -/
def idle (p : Programme) : Entry := { Entry.free with state := .idle, prog := p }

/-- A DONE entry. -/
def done (p : Programme) (oc : EntryOutcome) : Entry :=
  { inState .done p (.atTime 0 false) with outcome := some oc, retiredAt := some 7 }

/-- A running entry with a nominal cycle start, to be handed at the instant its record names. -/
def runningFrom (p : Programme) (start : Start) (c next : Nat) : Entry :=
  { inState .running p start with cycleStart := BitVec.ofNat 32 c, nextInstant := BitVec.ofNat 32 next }

/-- A part whose entry 5 has one item due at `t`, in a dispatch at tick `now`. -/
def dispatching (r : Entry) (t now : Nat) : State :=
  ({ base with
    now := BitVec.ofNat 32 now
    dispatch := some { handed := [], passed := [] }
    due := [⟨BitVec.ofNat 32 t, 5⟩] }).setEntry 5 r

/-- A start at an instant. -/
def atT (t : Nat) : Start := .atTime (BitVec.ofNat 32 t) false

/-- The start block of an AT_TIME start. -/
def blockAt (t late : Nat) : StartBlock :=
  ⟨BitVec.ofNat 8 (t / 16777216), BitVec.ofNat 8 (t / 65536), BitVec.ofNat 8 (t / 256), BitVec.ofNat 8 t,
    BitVec.ofNat 8 late⟩

/-- The status of the response in the buffer. -/
def statusOf (s : State) : Byte := s.link.buffer.frame.headD 0xFF

/-! ### WellFormed: each check refuses an ill-formed command -/

/-- A tick event that lists one part twice is ill formed. -/
theorem test_wellFormed_refuses_repeated_part :
    (Instr.tickEvent 0 [.sample 3, .dispatch, .sample 3]).wellFormed = false := by decide

/-- A SCHEDULE_SET of 54 members fits no frame. -/
theorem test_wellFormed_refuses_too_many_members :
    (Instr.scheduleSet 0 54 1 ⟨0, 0, 0, 0, 0⟩ (List.replicate 54 0)).wellFormed = false := by decide

/-- 53 members fit the longest frame, and every part once is a whole order. -/
theorem test_wellFormed_admits_the_greatest :
    (Instr.scheduleSet 0 53 1 ⟨0, 0, 0, 0, 0⟩ (List.replicate 53 0)).wellFormed = true ∧
      (Instr.tickEvent 0 tickUnits).wellFormed = true := by decide

/-! ### Frames (R141, R142, Tables 9-2 and 10-4) -/

/-- The NOP request with tag 5 of Table 9-2. -/
theorem test_crc8_nop : frameOf 0x00 0x05 [] = [0x00, 0x05, 0x00, 0x41] ∧ crc8 [0x00, 0x05] = 0x1B := by
  decide +kernel

/-- The fixed frames of Table 10-4. -/
theorem test_fixed_frames :
    frameOf 0xE1 0 [] = [0xE1, 0x00, 0x00, 0xA5] ∧ frameOf 0xE0 0 [] = [0xE0, 0x00, 0x00, 0xCE] := by
  decide +kernel

/-- The table gives no bits, so no word spells a command (log entry 20). -/
theorem test_no_word_spells_a_command : decodeTableWord 8 0x11 = none ∧ base.withFetchWord 8 0x11 = base := by
  decide +kernel

/-! ### Reset -/

/-- Power-on sets the divider to 1 and empties the response buffer (R3, R145). -/
theorem test_powerOn :
    after .powerOn { base with divider := 9, now := 77 } (fun t => t.divider == 1 && t.now == 0) = true := by
  decide +kernel

/-- RESET_N low drives every lane LOW, whatever its polarity (R108). -/
theorem test_resetNAssert :
    after .resetNAssert (base.setLane 3 { Lane.reset with polarity := .activeLow })
      (fun t => t.lanePin 3 == .low && (t.lane 3).polarity == .activeHigh) = true := by decide +kernel

/-- With CS_N low when RESET_N rises the controller waits for CS_N high (R153). -/
theorem test_resetNRelease :
    after .resetNRelease { held with pins := { held.pins with csN := .low } }
      (fun t => t.link.transaction == .waitHigh && !t.inReset) = true := by decide +kernel

/-! ### The tick event -/

/-- `now` wraps from 4,294,967,295 to 0 (R1). -/
theorem test_tickEvent_wraps :
    after (.tickEvent 0 []) { base with now := 0xFFFFFFFF } (fun t => t.now == 0) = true := by decide +kernel

/-- An item due at the new tick is handed over in its dispatch (R70, R72): entry 5 starts at tick 50 (R47). -/
theorem test_tickEvent_dispatches :
    after (.tickEvent 0 [.dispatch])
      ({ base with now := 49, due := [⟨50, 5⟩] }.setEntry 5 { inState .pending (prog 1 1 4 2) (atT 50) with nextInstant := 50 })
      (fun t => (t.entry 5).state == .running && t.due == [⟨51, 5⟩]) = true := by decide +kernel

/-- Lateness 256 is an overrun (R71). -/
theorem test_overrun :
    after .overrun (dispatching (inState .pending (prog 1 1 4 2) (atT 0)) 0 256)
      (fun t => (t.entry 5).outcome == some .overrun && t.due == []) = true := by decide +kernel

/-- Lateness 255 is none (R71). -/
theorem test_overrun_boundary :
    after .overrun (dispatching (inState .pending (prog 1 1 4 2) (atT 0)) 0 255)
      (fun t => (t.entry 5).state == .pending && t.due == [⟨0, 5⟩]) = true := by decide +kernel

/-- With D = 0, START and ACTIVE fall together: the lane is ACTIVE at the START (R39, R41). -/
theorem test_action_start_and_active :
    after .action ((dispatching (inState .pending (progOn 4 0 3 0 1) (atT 50)) 50 50).setLane 4
        { Lane.reset with owner := some 5 })
      (fun t => t.lanePin 4 == .high && t.due == [⟨53, 5⟩]) = true := by decide +kernel

/-- An action three ticks late writes `next instant` from the nominal cycle start, and the skew 3 (R7, R42). -/
theorem test_action_keeps_nominal_times :
    after .action (dispatching (runningFrom (prog 10 20 100 0) (atT 0) 1000 1010) 1010 1013)
      (fun t => (t.entry 5).nextInstant == 1030 && (t.entry 5).worstSkew == 3) = true := by decide +kernel

/-- A pulse with one tick left ends (R110). -/
theorem test_strobePulseEnd :
    after (.strobePulseEnd 2) (base.setStrobe 2 { width := 4, remaining := 1, countdownDue := true })
      (fun t => t.strobePin 2 == .low) = true := by decide +kernel

/-- A first sample sets the accepted level and qualifies no edge (R82, R83). -/
theorem test_triggerSample_first :
    after (.triggerSample 0 .high) ((base.setLine 0 { TriggerLine.reset with edge := .both, subs := [5], sampleDue := true }
        ).setEntry 5 (inState .pending (prog 1 1 4 2) (.onTrigger 0 .once .ignore)))
      (fun t => (t.line 0).accepted == some .high && (t.entry 5).state == .pending) = true := by decide +kernel

/-- The second differing sample of three leaves the accepted level (R82). -/
theorem test_triggerSample_counts :
    after (.triggerSample 0 .high)
      (base.setLine 0 { TriggerLine.reset with edge := .both, accepted := some .low, runLength := 1, sampleDue := true })
      (fun t => (t.line 0).accepted == some .low && (t.line 0).runLength == 2) = true := by decide +kernel

/-- The K-th differing sample of a rising line starts a ONCE subscriber, which leaves the list (R83, R89). -/
theorem test_qualifiedEdge :
    after (.qualifiedEdge 0) ((base.setLine 0
        { TriggerLine.reset with edge := .rising, accepted := some .low, runLength := 2, subs := [5], sampleDue := true }
        ).setEntry 5 (inState .pending (prog 1 1 4 2) (.onTrigger 0 .once .ignore)))
      (fun t => (t.entry 5).state == .running && (t.line 0).subs == []) = true := by decide +kernel

/-! ### A request taken on the edge that ends its execution -/

/-- A part whose execution of a request ends on the next CLK edge. -/
def ending (s : State) (c : Instr) : State := s.setLink { s.link with buffer := .executing (.waiting c), age := 159 }

/-- In either order with the timebase, SET_TIME leaves V and a whole tick to come (R10), and a SET_DIVIDER governs the tick
that begins on the edge (R12). -/
theorem test_edge_time_requests :
    (∀ order ∈ [[Config.EdgeUnit.timebase, .execution], [.execution, .timebase]],
      (let t := (ending base (.setTime 1 77)).clkPartsIn order tickUnits
       t.now = 77 ∧ t.tickPhase = 0) ∧
      (let t := (ending base (.setDivider 1 9)).clkPartsIn order tickUnits
       t.now = 1 ∧ t.tickPhase = 0 ∧ t.tickLength = 9)) := by decide +kernel

/-- A source enabled by TRIP_CONFIG takes no sample on the edge: at depth 1, with its input active, it stays QUIET (R137). -/
theorem test_edge_tripConfig :
    (∀ order ∈ [[Config.EdgeUnit.tripSamples, .execution], [.execution, .tripSamples]],
      (let t := (ending base (.tripConfig 1 0 1 0 1 0x0001)).clkPartsIn order tickUnits
       t.tripA.enabled = true ∧ t.tripA.state = .quiet ∧ t.pins.tripA = .low)) := by decide +kernel

/-- Entry 5 owns lane 1 of A's group, and entry 6 behind it lane 2 of B's; A and B complete their K-th sample on the next
CLK edge, which ends a tick or does not. -/
def bothTrip (tickLength : Nat) : State :=
  (((({ base with
      tickLength := tickLength
      tripA := { TripSource.reset with enabled := true, runLength := 2, group := 0x0002 }
      tripB := { TripSource.reset with enabled := true, runLength := 2, group := 0x0004 } }.setLane 1
    { Lane.reset with owner := some 5 }).setLane 2 { Lane.reset with owner := some 6 }).setEntry 5
      { runningFrom (progOn 1 1 1 4 0) (atT 0) 0 1 with successor := some 6 }).setEntry 6
        { inState .pending (progOn 2 1 1 4 0) (.after 5) with predecessor := some 5 })

/-- Trips of one edge end every entry TRIPPED with one `retired at`, in whatever order the edge is taken: of A and B, and of A and
a TRIP of lane 2 (R132, R133). -/
theorem test_edge_trips_together :
    (∀ order ∈ [[Config.EdgeUnit.timebase, .tripSamples, .execution], [.execution, .timebase, .tripSamples]],
      ∀ n ∈ [1, 2], ∀ c ∈ [Instr.nop 1, .trip 1 0x0004],
      (let s := if c = .nop 1 then bothTrip n else ending ((bothTrip n).setTrip .b TripSource.reset) c
       let t := s.clkPartsIn order tickUnits
       (t.entry 5).outcome = some .tripped ∧ (t.entry 6).outcome = some .tripped ∧
         (t.entry 5).retiredAt = (t.entry 6).retiredAt)) := by decide +kernel

/-! ### Trip inputs -/

/-- A third ACTIVE sample trips the group of a QUIET source: its lane shows its safe level (R128, R129, R131). -/
theorem test_tripFilterSample_trips :
    after (.tripFilterSample .a .low)
      ({ base with tripA := { TripSource.reset with enabled := true, runLength := 2, group := 0x0010 } }.setLane 4
        { Lane.reset with safeLevel := .float })
      (fun t => t.tripA.state == .held && t.lanePin 4 == .float) = true := by decide +kernel

/-- A sample that agrees returns the run length to 0 (R128). -/
theorem test_tripFilterSample_resets_run :
    after (.tripFilterSample .b .high) { base with tripB := { TripSource.reset with enabled := true, runLength := 2 } }
      (fun t => t.tripB.runLength == 0 && t.pins.tripB == .high) = true := by decide +kernel

/-- The owner of a tripped lane retires TRIPPED, and its lane is without owner (R131, R132). -/
theorem test_tripInputActive :
    after (.tripInputActive .a) (({ base with tripA := { TripSource.reset with enabled := true, group := 0x0002 } }.setLane 1
        { Lane.reset with owner := some 5, call := .active }).setEntry 5 (runningFrom (progOn 1 1 1 4 0) (atT 0) 0 1))
      (fun t => (t.entry 5).outcome == some .tripped && (t.lane 1).owner == none) = true := by decide +kernel

/-- A HELD source becomes LATCHED, and still holds its lanes (R129). -/
theorem test_tripInputInactive :
    after (.tripInputInactive .b)
      ({ base with
        tripB := { TripSource.reset with enabled := true, group := 0x0002, inputState := .active, state := .held }
        }.setLane 1 { Lane.reset with trippedBy := { TrippedBy.empty with b := true } })
      (fun t => t.tripB.state == .latched && (t.lane 1).trippedBy.b) = true := by decide +kernel

/-! ### The link -/

/-- An empty buffer sends NO_RESPONSE, and the transaction is ORDINARY (R140). -/
theorem test_csNFall :
    after .csNFall base (fun t => t.link.outgoing == some [0xE1, 0x00, 0x00, 0xA5] && t.link.transaction == .ordinary)
      = true := by decide +kernel

/-- A transaction that opens during an execution is DISCARDING and sends NOT_READY (R140, R147). -/
theorem test_csNFall_executing :
    after .csNFall (base.setBuffer (.executing (.answered 1 Answer.ok)))
      (fun t => t.link.outgoing == some [0xE0, 0x00, 0x00, 0xCE] && t.link.transaction == .discarding) = true := by
  decide +kernel

/-- The 65th byte is counted and not kept (R139). -/
theorem test_byteReceived :
    after (.byteReceived 9)
      (base.setLink { Link.reset with transaction := .ordinary, received := List.replicate 64 1, count := 64 })
      (fun t => t.link.count == 65 && t.link.received == List.replicate 64 1) = true := by decide +kernel

/-- The close of a transaction of 0 bytes changes no state of the link but that of the transaction: the outgoing frame and the
buffer are kept (R143). -/
theorem test_csNRise_of_no_byte :
    after .csNRise (base.setLink { Link.reset with
        transaction := .ordinary, outgoing := some [1, 2, 0, 3], buffer := .ready [1, 2, 0, 3], age := 9 })
      (fun t => t.link == { Link.reset with outgoing := some [1, 2, 0, 3], buffer := .ready [1, 2, 0, 3], age := 9 })
      = true := by decide +kernel

/-- A frame with an unknown code is answered BAD_REQUEST with its tag (R143, R144). -/
theorem test_csNRise_bad_request :
    after .csNRise (base.setLink { Link.reset with transaction := .ordinary, received := frameOf 0x04 9 [], count := 4 })
      (fun t => t.link.buffer == .executing (.answered 9 (.refusal .badRequest))) = true := by decide +kernel

/-- A NOP frame of a wrong length is refused PARAM_RANGE before it reaches its owner (R144). -/
theorem test_csNRise_wrong_length :
    after .csNRise (base.setLink { Link.reset with transaction := .ordinary, received := frameOf 0x00 9 [7], count := 5 })
      (fun t => t.link.buffer == .executing (.answered 9 (.refusal .paramRange))) = true := by decide +kernel

/-- The end of an execution puts the response in the buffer (R146). -/
theorem test_executionEnd :
    after .executionEnd (base.setBuffer (.executing (.waiting (.readTime 3))))
      (fun t => t.link.buffer == .ready (frameOf 0x00 3 [0, 0, 0, 0, 0, 1])) = true := by decide +kernel

/-- NOP is answered OK with its tag (R151). -/
theorem test_nop : after (.nop 0x2A) base (fun t => t.link.buffer == .ready (frameOf 0x00 0x2A [])) = true := by
  decide +kernel

/-! ### The time requests -/

/-- READ_TIME reports the recorded divider, not the length of the tick in progress (R8, R12). -/
theorem test_readTime :
    after (.readTime 1) { base with now := 0x01020304, divider := 256, tickLength := 10 }
      (fun t => t.link.buffer == .ready (frameOf 0x00 1 [1, 2, 3, 4, 1, 0])) = true := by decide +kernel

/-- SET_TIME begins a new tick with the recorded divider (R10). -/
theorem test_setTime :
    after (.setTime 1 0x80000000) { base with divider := 7, tickLength := 3, tickPhase := 2 }
      (fun t => t.now == 0x80000000 && t.tickPhase == 0 && t.tickLength == 7) = true := by decide +kernel

/-- A PENDING entry makes the timebase busy (R9). -/
theorem test_setTime_busy :
    after (.setTime 1 5) (base.setEntry 63 (inState .pending (prog 1 1 4 2) (.onTrigger 0 .once .ignore)))
      (fun t => t.now == 0 && statusOf t == 0x0B) = true := by decide +kernel

/-- The divider 256 is in range and takes effect at the next tick (R12). -/
theorem test_setDivider :
    after (.setDivider 1 256) base (fun t => t.divider == 256 && t.tickLength == 1) = true := by decide +kernel

/-- The divider 257 is PARAM_RANGE (R12, R155). -/
theorem test_setDivider_range : after (.setDivider 1 257) base (fun t => t.divider == 1 && statusOf t == 0x02) = true := by
  decide +kernel

/-! ### The entry requests -/

/-- DEFINE of a one-shot with a strobe at ACTIVE of line 2 (R20, Table 10-5). -/
theorem test_define :
    after (.define 1 12 4 100 50 0 1 0x92 1) base
      (fun t => (t.entry 12).state == .idle && (t.entry 12).prog.strobe == some ⟨2, .active⟩) = true := by decide +kernel

/-- D + W above P is refused on a repeating programme (R18). -/
theorem test_define_invalid :
    after (.define 1 12 4 60 50 100 0 0 1) base (fun t => (t.entry 12).state == .free && statusOf t == 0x02) = true := by
  decide +kernel

/-- SCHEDULE AT_TIME at a past instant with late_ok is due now, with LATE_START (R23). -/
theorem test_schedule_late :
    after (.schedule 1 5 1 (blockAt 90 1)) ({ base with now := 100 }.setEntry 5 (idle (progOn 2 1 1 4 2)))
      (fun t => t.due == [⟨100, 5⟩] && (t.entry 5).flags.lateStart && (t.lane 2).owner == some 5) = true := by
  decide +kernel

/-- An entry after its lane's owner becomes the heir (R117). -/
theorem test_schedule_after :
    after (.schedule 1 5 3 ⟨6, 0, 0, 0, 0⟩) ((((base.setEntry 5 (idle (progOn 2 1 1 4 2))).setEntry 6
        (runningFrom (progOn 2 1 1 4 2) (atT 0) 0 1)).setLane 2 { Lane.reset with owner := some 6 }))
      (fun t => (t.lane 2).heir == some 5 && (t.entry 6).successor == some 5) = true := by decide +kernel

/-- Two members of a set on one lane: the second fails at index 1 with LANE_BUSY, and none is scheduled (R124, R126). -/
theorem test_scheduleSet :
    after (.scheduleSet 1 2 1 (blockAt 90 0) [5, 6]) (((base.setEntry 5 (idle (progOn 2 1 1 4 2))).setEntry 6
        (idle (progOn 2 1 1 4 2))))
      (fun t => t.link.buffer == .ready (frameOf 0x09 1 [1, 0x04]) && (t.entry 5).state == .idle) = true := by
  decide +kernel

/-- An AMEND of W on a RUNNING entry is staged (R56). -/
theorem test_amend_stages :
    after (.amend 1 20 0x02 0 600 0 0) (base.setEntry 20 (runningFrom (prog 100 400 1000 0) (atT 0) 0 100))
      (fun t => (t.entry 20).staged == ⟨none, some 600, none⟩ && (t.entry 20).prog.width == 400) = true := by decide +kernel

/-- A new N at `cycles done` ends the run with the cycle in progress (R57). -/
theorem test_amend_shortens :
    after (.amend 1 20 0x08 0 0 0 3)
      (base.setEntry 20 { runningFrom (prog 100 400 1000 9) (atT 0) 0 100 with cyclesDone := 3 })
      (fun t => (t.entry 20).cyclesDone == 2 && (t.entry 20).prog.count == 3) = true := by decide +kernel

/-- DRAIN throws a held trigger away and counts it (R59). -/
theorem test_drain :
    after (.drain 1 20) (base.setEntry 20
        { runningFrom (prog 100 400 1000 9) (.onTrigger 0 .every .holdOne) 0 100 with heldTrigger := some 0 })
      (fun t => (t.entry 20).state == .draining && (t.entry 20).missedTriggers == 1) = true := by decide +kernel

/-- CANCEL of a predecessor breaks the entry that waits on it (R62, R122). -/
theorem test_cancel :
    after (.cancel 1 5) ((base.setEntry 5 { runningFrom (prog 1 1 4 2) (atT 0) 0 1 with successor := some 6 }).setEntry 6
        { inState .pending (prog 1 1 4 2) (.after 5) with predecessor := some 5 })
      (fun t => (t.entry 5).outcome == some .cancelled && (t.entry 6).outcome == some .chainBroken) = true := by
  decide +kernel

/-- A FREE entry is reported with lane, predecessor and successor 0xFF and all else 0x00 (R161). -/
theorem test_query_free :
    queryPayload 9 Entry.free = [9, 0, 0, 0xFF] ++ List.replicate 48 0 ++ [0xFF, 0xFF, 0, 0, 0, 0, 0] := by decide +kernel

/-- QUERY of an entry number above 63 is BAD_ENTRY (R14). -/
theorem test_query_bad_entry : after (.query 1 64) base (fun t => statusOf t == 0x03) = true := by decide +kernel

/-- ACK keeps the programme and leaves the attention set (R34). -/
theorem test_ack :
    after (.ack 1 5) (base.setEntry 5 (done { prog 1 1 4 2 with notify := true } .completed))
      (fun t => t.entry 5 == idle { prog 1 1 4 2 with notify := true } && !t.attnLow) = true := by decide +kernel

/-- RELEASE of an IDLE entry frees it (R35). -/
theorem test_release :
    after (.release 1 5) (base.setEntry 5 (idle (prog 1 1 4 2))) (fun t => t.entry 5 == Entry.free) = true := by
  decide +kernel

/-! ### The trigger, lane, strobe and trip requests -/

/-- SUMMARY lists entry 9 as DONE in byte 6, bit 1, and counts 63 FREE entries (R165). -/
theorem test_summary :
    after (.summary 1) (base.setEntry 9 (done { prog 1 1 4 2 with notify := true } .completed))
      (fun t => t.link.buffer == .ready (frameOf 0x00 1 [0, 0, 0, 0, 0, 0, 2, 0, 0, 0, 0, 0, 0, 0, 2, 0, 63, 0, 0, 0]))
      = true := by decide +kernel

/-- A change of `edge` alone keeps the filter (R96). -/
theorem test_triggerConfig :
    after (.triggerConfig 1 7 3 1 3) (base.setLine 7 { TriggerLine.reset with accepted := some .high, runLength := 2 })
      (fun t => (t.line 7).edge == .both && (t.line 7).runLength == 2) = true := by decide +kernel

/-- A polarity change on an owned lane is LANE_BUSY (R104). -/
theorem test_laneConfig :
    after (.laneConfig 1 3 1 2) (base.setLane 3 { Lane.reset with owner := some 5 })
      (fun t => statusOf t == 0x04 && (t.lane 3).polarity == .activeHigh) = true := by decide +kernel

/-- A forced ACTIVE level on an ACTIVE_LOW lane shows LOW (R99, R105). -/
theorem test_laneSet :
    after (.laneSet 1 3 1) (base.setLane 3 { Lane.reset with polarity := .activeLow })
      (fun t => t.lanePin 3 == .low && (t.lane 3).forced == some .active) = true := by decide +kernel

/-- LANE_QUERY of a lane tripped by B and SOFT shows the safe level (R99, Table 10-11). -/
theorem test_laneQuery :
    after (.laneQuery 1 3) (base.setLane 3 { Lane.reset with safeLevel := .high, trippedBy := ⟨false, true, true⟩ })
      (fun t => t.link.buffer == .ready (frameOf 0x00 1 [3, 0, 1, 0xFF, 0, 0xFF, 0, 6, 1])) = true := by decide +kernel

/-- A new width leaves the pulse in progress as it is (R112). -/
theorem test_strobeConfig :
    after (.strobeConfig 1 3 255) (base.setStrobe 3 { width := 2, remaining := 1, countdownDue := false })
      (fun t => (t.strobe 3).width == 255 && (t.strobe 3).remaining == 1) = true := by decide +kernel

/-- TRIP_CONFIG of a source that is not QUIET is TRIP_ACTIVE (R137). -/
theorem test_tripConfig :
    after (.tripConfig 1 0 0 0 3 0) { base with tripA := { TripSource.reset with enabled := true, state := .latched } }
      (fun t => statusOf t == 0x0A && t.tripA.enabled) = true := by decide +kernel

/-- A second TRIP adds its lanes to SOFT's group (R135). -/
theorem test_trip :
    after (.trip 1 0x0003) ({ base with soft := { group := 0x0001, state := .latched } }.setLane 0
        { Lane.reset with trippedBy := { TrippedBy.empty with soft := true } })
      (fun t => t.soft.group == 3 && (t.lane 1).trippedBy.soft) = true := by decide +kernel

/-- CLEAR_TRIP of one of two sources leaves the lane tripped by the other (R133, R136). -/
theorem test_clearTrip :
    after (.clearTrip 1 2) ({ base with soft := { group := 0x0001, state := .latched } }.setLane 0
        { Lane.reset with safeLevel := .high, trippedBy := ⟨true, false, true⟩ })
      (fun t => t.soft == SoftSource.reset && t.lanePin 0 == .high) = true := by decide +kernel

/-- SOFT_RESET keeps the time and the trips, and frees the entries (R152). -/
theorem test_softReset :
    after (.softReset 1) ({ base with now := 77, soft := { group := 1, state := .latched } }.setEntry 5
        (done { prog 1 1 4 2 with notify := true } .completed))
      (fun t => t.now == 77 && t.attnLow && t.entry 5 == Entry.free) = true := by decide +kernel

/-- An idle step counts no CLK edge while the part is held in reset (R3; log entry 4). -/
theorem test_idle_in_reset : (match step held with | .next t => decide (t = held) | _ => false) = true := by decide +kernel

/-! ### Witnesses: for each statement with hypotheses, a state and operands that meet them -/

/-- A step takes place on an empty queue in reset, on a steady part before and at the end of a tick, and on a stopped one whose
execution of a SET_TIME, of a SET_DIVIDER or of a TRIP_CONFIG ends; the last enables a source, or restarts one that has taken
its K-th sample but one. -/
theorem witness_IdleEdgeCountsTheTick :
    (held.pending = [] ∧ held.inReset = true) ∧ (base.pending = [] ∧ base.Steady ∧ ¬ base.tickPhase + 1 < base.tickLength) ∧
      (let s := { base with tickLength := 256, tickPhase := 254 }
       s.pending = [] ∧ s.Steady ∧ s.tickPhase + 1 < s.tickLength) ∧
      (∀ c ∈ [Instr.setTime 1 77, .setDivider 1 1, .setDivider 1 256, .tripConfig 1 0 1 0 15 1, .tripConfig 1 1 1 1 1 1],
        (ending base c).pending = [] ∧ (ending base c).EndsExecutionOf c ∧ (ending base c).Stopped) ∧
      (1#16).toNat = 1 ∧ (256#16).toNat = 256 ∧ (1 : Byte).toNat ≤ 1 ∧ 1 ≤ (1 : Byte).toNat ∧ (15 : Byte).toNat ≤ 15 ∧
      (base.trip .a).state = .quiet ∧ (base.trip .a).enabled = false ∧
      (let s := ending (base.setTrip .b { TripSource.reset with enabled := true, runLength := 2 }) (.tripConfig 1 1 1 1 1 1)
       s.EndsExecutionOf (.tripConfig 1 1 1 1 1 1) ∧ (s.trip .b).state = .quiet ∧ (s.trip .b).depth ≠ (1 : Byte).toNat ∧
         (s.trip .b).depth ≤ (s.trip .b).runLength + 1 ∧ s.tripPin .b = (s.trip .b).activeLevel) := by decide +kernel

/-- A and B trip on an edge that ends no tick, alone and with a TRIP, of SOFT QUIET and LATCHED; an entry of B's lane waits
behind one of A's. -/
theorem witness_IdleEdgeCountsTheTick_trips :
    (∀ soft ∈ [SoftSource.reset, ⟨0x0001, .latched⟩],
      let s := { bothTrip 2 with soft := soft }
      let u := ending s (.trip 1 0x8001)
      (s.pending = [] ∧ s.Steady ∧ s.tickPhase + 1 < s.tickLength ∧ s.edgeGroup .a = 0x0002 ∧ s.edgeGroup .b = 0x0004) ∧
        ((s.entry 6).scheduled = true ∧ s.HoldsUntripped 0x0006 6 ∧ (s.entry 5).successor = some 6) ∧
        u.pending = [] ∧ u.EndsExecutionOf (.trip 1 0x8001) ∧ (0x8001 : LaneGroup) ≠ 0 ∧ u.soft.state ≠ .held ∧
        u.tickPhase + 1 < u.tickLength) := by decide +kernel

theorem witness_ResetsGiveTheResetValues :
    (base.inReset = false ∧ base.pins.csN ≠ .low) ∧ (base.setPins { Pins.reset with csN := .low }).inReset = false ∧
      held.inReset = true := by decide +kernel

theorem witness_NothingHappensInReset :
    held.inReset = true ∧ Instr.nop 0 ≠ .powerOn ∧ Instr.nop 0 ≠ .resetNAssert ∧ Instr.nop 0 ≠ .resetNRelease ∧
      Instr.nop 0 ≠ .csNFall ∧ Instr.nop 0 ≠ .csNRise := by decide +kernel

/-- The part after reset; lateness 255, four actions, one tick early, lateness 256; a QUALIFIED_EDGE before the K-th sample,
without an accepted level, or with a change that `edge` does not select; `remaining` 0 and 2; each open transaction. -/
theorem witness_EventsWithoutCauseChangeNothing :
    (base.inReset = false ∧ base.dispatch = none ∧ (base.line 7).sampleDue = false ∧
      (base.strobe 3).countdownDue = false ∧ base.link.buffer.isExecuting = false ∧ base.link.transaction = .closed) ∧
    (let s := dispatching (idle (prog 1 1 4 2)) 0 255
     s.inReset = false ∧ s.due.head? = some ⟨0, 5⟩ ∧ lateness 0 s.now ≤ 255) ∧
    (let s := dispatching (idle (prog 1 1 4 2)) 0 0
     let d : DispatchWork := ⟨[1, 2, 3, 4], []⟩
     (s.setDispatch (some d)).dispatch = some d ∧ 4 ≤ d.handed.length) ∧
    (let s := dispatching (idle (prog 1 1 4 2)) 51 50
     s.due.head? = some ⟨51, 5⟩ ∧ 0 < signedDiff 51 s.now) ∧
    (let s := dispatching (idle (prog 1 1 4 2)) 0 256
     s.inReset = false ∧ s.due.head? = some ⟨0, 5⟩ ∧ 255 < lateness 0 s.now) ∧
    (∀ l ∈ [TriggerLine.mk .both 1 3 0 none 2 [] true, ⟨.both, 1, 3, 0, some .low, 1, [], true⟩,
        ⟨.none, 1, 3, 0, some .low, 2, [], true⟩, ⟨.rising, 1, 3, 0, some .high, 2, [], true⟩,
        ⟨.falling, 1, 3, 0, some .low, 2, [], true⟩],
      (base.setLine 7 l).inReset = false ∧ ((base.setLine 7 l).line 7).sampleDue = true ∧
        (l.accepted = none ∨ l.runLength + 1 < l.depth ∨ l.edge = .none ∨ (l.edge = .rising ∧ l.accepted = some .high) ∨
          (l.edge = .falling ∧ l.accepted = some .low))) ∧
    (∀ r ∈ [0, 2], ((base.setStrobe 3 ⟨4, r, true⟩).strobe 3).remaining ≠ 1) ∧ (base.trip .a).enabled = false ∧
    (∀ tr ∈ [Transaction.ordinary, .discarding, .waitHigh],
      (base.setLink { Link.reset with transaction := tr }).link.transaction ≠ .closed) := by decide +kernel

theorem witness_TickEventAdvancesTheTimebase : base.inReset = false := by decide +kernel

/-- A line at the last count before its sample and one before it; a pulse in progress and none. -/
theorem witness_TickEventBeginsItsParts :
    (let s := ((base.setLine 1 { TriggerLine.reset with sampleDivider := 2 }).setStrobe 0
        { width := 1, remaining := 1, countdownDue := false })
     s.Steady ∧ ¬ (s.line 0).sampleCount + 1 < (s.line 0).sampleDivider ∧
       (s.line 1).sampleCount + 1 < (s.line 1).sampleDivider ∧ 0 < (s.strobe 0).remaining ∧ (s.strobe 1).remaining = 0) := by
  decide +kernel

/-- A due list of one overdue item and five due at the tick event; the part after reset, whose due list is empty. -/
theorem witness_WholeTickLeavesNothingOwed :
    (let s := { base with now := 300, due := [⟨10, 1⟩, ⟨301, 2⟩, ⟨301, 3⟩, ⟨301, 4⟩, ⟨301, 5⟩, ⟨301, 6⟩] }
     s.inReset = false ∧ after (.tickEvent 0 []) s (fun t => decide (t.due.length ≤ 6 ∧ t.overdueHead.isSome = true)) = true) ∧
    base.inReset = false ∧ (∀ u ∈ tickUnits, u ∈ tickUnits.reverse) ∧ base.TickWhole ∧ base.due = [] ∧
      ∀ n : Fin 8, (base.line n).edge = .none := by decide +kernel

/-- Entry `e` waits on entry `p`, its successor `y` behind it. -/
def waitingOn (p : Fin 64) (l : Fin 16) (y : Option (Fin 64)) : Entry :=
  { inState .pending (progOn l 1 1 4 2) (.after p) with predecessor := some p, successor := y }

/-- A chain of two waiting entries behind an overdue head, the second on a lane of its own; entry 9 stands in none. -/
theorem witness_OverrunRetiresTheHead :
    (let s := (((dispatching { inState .pending (progOn 1 1 1 4 2) (atT 0) with successor := some 6 } 0 256).setEntry 6
        (waitingOn 5 1 (some 7))).setEntry 7 (waitingOn 6 2 none)).setLane 2 { Lane.reset with owner := some 7 }
     s.inReset = false ∧ s.dispatch ≠ none ∧ s.due.head? = some ⟨0, 5⟩ ∧ 255 < lateness 0 s.now ∧
       (s.entry 5).scheduled = true ∧ (s.entry 5).successor = some 6 ∧ (s.entry 6).scheduled = true ∧
       (s.entry 6).successor = some 7 ∧ (s.entry 7).scheduled = true ∧
       after .overrun s (fun t => decide ((t.entry 6).outcome = some .chainBroken ∧ (t.entry 7).outcome = some .chainBroken ∧
         (t.lane 2).owner = none ∧ ∀ p : Fin 64, (s.entry p).successor ≠ some 9)) = true) := by decide +kernel

/-- A PENDING entry at lateness 255, and the START of a run begun by an edge. -/
theorem witness_ActionTakesTheStart :
    (let s := dispatching (inState .pending (prog 0 1 0 1) (atT 0)) 0 255
     s.Hands ⟨[], []⟩ ⟨0, 5⟩ ∧ (s.entry 5).state = .pending ∧ (s.entry 5).progWithStaged.Lawful) ∧
    (let s := dispatching { runningFrom (prog 1 1 4 2) (.onTrigger 0 .once .ignore) 50 50 with
        state := .draining, staged := ⟨none, some 3, none⟩ } 50 50
     s.Hands ⟨[], []⟩ ⟨50, 5⟩ ∧ (s.entry 5).state = .draining ∧ (50 : Instant) = (s.entry 5).cycleStart ∧
       (s.entry 5).progWithStaged.Lawful) := by decide +kernel

/-- The ACTIVE and the INACTIVE instant of a cycle, the last offset before the END among them. -/
theorem witness_ActionInsideACycle :
    (∀ o ∈ [1, 3], let s := dispatching (runningFrom (prog 1 2 4 2) (atT 0) 50 (50 + o)) (50 + o) (50 + o)
      s.Hands ⟨[], []⟩ ⟨BitVec.ofNat 32 (50 + o), 5⟩ ∧ (s.entry 5).state = .running ∧ (s.entry 5).prog.Lawful ∧
        o = (BitVec.ofNat 32 (50 + o) - (s.entry 5).cycleStart).toNat ∧ o ≠ 0 ∧ o < (s.entry 5).prog.lastOffset ∧
        (o = (s.entry 5).prog.delay.toNat ∨ o = (s.entry 5).prog.delay.toNat + (s.entry 5).prog.width.toNat)) := by
  decide +kernel

/-- A run without end, and the last cycle but one of a run with a count. -/
theorem witness_ActionBeginsTheNextCycle :
    (∀ n ∈ [0, 2], let s := dispatching (runningFrom (prog 1 2 4 n) (atT 0) 50 54) 54 54
      let r := s.entry 5
      s.Hands ⟨[], []⟩ ⟨54, 5⟩ ∧ r.state = .running ∧ r.prog.Lawful ∧ r.progWithStaged.Lawful ∧ r.prog.count ≠ 1 ∧
        ((54 : Instant) - r.cycleStart).toNat = r.prog.period.toNat ∧
        (r.prog.count = 0 ∨ r.cyclesDone.toNat + 1 < r.prog.count.toNat)) := by decide +kernel

/-- The END of the last cycle of a run with a count, and of any cycle of a DRAINING entry. -/
theorem witness_FinalActionRetires :
    (∀ st ∈ [EntryState.running, .draining],
      let s := dispatching { runningFrom (prog 1 2 4 2) (atT 0) 50 54 with cyclesDone := 1, state := st } 54 54
      let r := s.entry 5
      s.Hands ⟨[], []⟩ ⟨54, 5⟩ ∧
        (r.state = .draining ∨
          (r.state = .running ∧ r.isEvery = false ∧ r.prog.count ≠ 0 ∧ r.prog.count.toNat ≤ r.cyclesDone.toNat + 1)) ∧
        r.prog.Lawful ∧ ((54 : Instant) - r.cycleStart).toNat = r.prog.lastOffset ∧ r.successor = none) := by
  decide +kernel

theorem witness_FinalActionReturnsToPending :
    (let s := dispatching (runningFrom (prog 1 2 0 1) (.onTrigger 0 .every .ignore) 50 53) 53 53
     let r := s.entry 5
     s.Hands ⟨[], []⟩ ⟨53, 5⟩ ∧ r.state = .running ∧ r.isEvery = true ∧ r.heldTrigger = none ∧ r.prog.Lawful ∧
       r.prog.count ≠ 0 ∧ r.prog.count.toNat ≤ r.cyclesDone.toNat + 1 ∧
       ((53 : Instant) - r.cycleStart).toNat = r.prog.lastOffset) := by decide +kernel

/-- A part whose entry 5 ends its run at tick 1000 with a held trigger. -/
def holding (h : Instant) : State :=
  dispatching { runningFrom (prog 1 2 0 1) (.onTrigger 0 .every .holdOne) 997 1000 with heldTrigger := some h } 1000 1000

/-- A held trigger whose first instant after START is 255 ticks late, and one whose is 256 ticks late. -/
theorem witness_FinalActionServesTheHeldTrigger :
    ((holding 744).Hands ⟨[], []⟩ ⟨1000, 5⟩ ∧ ((holding 744).entry 5).state = .running ∧
      ((holding 744).entry 5).isEvery = true ∧ ((holding 744).entry 5).heldTrigger = some 744 ∧
      ((holding 744).entry 5).prog.Lawful ∧ ((holding 744).entry 5).progWithStaged.Lawful ∧
      ((holding 744).entry 5).prog.count ≠ 0 ∧
      ((holding 744).entry 5).prog.count.toNat ≤ ((holding 744).entry 5).cyclesDone.toNat + 1 ∧
      ((1000 : Instant) - ((holding 744).entry 5).cycleStart).toNat = ((holding 744).entry 5).prog.lastOffset ∧
      ((holding 744).entry 5).progWithStaged.offsetAfter 0 = 1 ∧ lateness (744 + BitVec.ofNat 32 1) 1000 ≤ 255) ∧
    ((holding 743).Hands ⟨[], []⟩ ⟨1000, 5⟩ ∧ ((holding 743).entry 5).heldTrigger = some 743 ∧
      ¬ lateness (743 + BitVec.ofNat 32 1) 1000 ≤ 255) := by decide +kernel

/-- A hand-off on a shared lane, both entries with a strobe point on one strobe line in the event; and one between entries
with lanes and strobe lines of their own, behind a third. -/
theorem witness_HandOffStartsTheSuccessor :
    (let s := ((dispatching { runningFrom { progOn 3 1 2 0 1 with strobe := some ⟨0, .inactive⟩ } (atT 50) 50 53 with
        successor := some 6 } 53 53).setEntry 6 { inState .pending { progOn 3 0 2 0 1 with strobe := some ⟨0, .start⟩ }
          (.after 5) with predecessor := some 5 }).setLane 3 { Lane.reset with owner := some 5, heir := some 6 }
     let r := s.entry 5
     let q := s.entry 6
     s.Hands ⟨[], []⟩ ⟨53, 5⟩ ∧
       (r.state = .running ∧ r.isEvery = false ∧ r.prog.count ≠ 0 ∧ r.prog.count.toNat ≤ r.cyclesDone.toNat + 1) ∧
       r.prog.Lawful ∧ ((53 : Instant) - r.cycleStart).toNat = r.prog.lastOffset ∧ r.successor = some 6 ∧
       q.state = .pending ∧ q.predecessor = some 5 ∧ q.staged = Staged.none ∧ q.prog.Lawful ∧
       r.prog.lane = some 3 ∧ q.prog.lane = some 3 ∧ (s.lane 3).owner = some 5 ∧ (s.lane 3).heir = some 6 ∧
       r.prog.strobe.map StrobeUse.line = some 0 ∧ q.prog.strobe.map StrobeUse.line = some 0 ∧
       r.prog.pointServed r.prog.lastOffset false = true ∧ q.prog.pointServed 0 true = true ∧
       0 < (s.strobe 0).width) ∧
    (let s := (((dispatching { runningFrom { progOn 3 1 2 0 1 with strobe := some ⟨0, .inactive⟩ } (atT 50) 50 53 with
        successor := some 6, predecessor := some 4 } 53 53).setEntry 6 { inState .pending { progOn 4 0 2 0 1 with
          strobe := some ⟨1, .start⟩ } (.after 5) with predecessor := some 5 }).setLane 3
          { Lane.reset with owner := some 5 }).setLane 4 { Lane.reset with owner := some 6 }
     let r := s.entry 5
     let q := s.entry 6
     s.Hands ⟨[], []⟩ ⟨53, 5⟩ ∧ r.prog.Lawful ∧ r.successor = some 6 ∧ q.state = .pending ∧ q.predecessor = some 5 ∧
       q.prog.Lawful ∧ (s.lane 3).owner = some 5 ∧ (s.lane 3).heir ≠ some 6 ∧ r.prog.lane ≠ some 4 ∧
       q.prog.lane = some 4 ∧ (s.lane 4).owner = some 6 ∧ (s.strobe 0).remaining = 0 ∧ (s.strobe 1).remaining = 0) := by
  decide +kernel

theorem witness_StrobePulseEnds :
    (let s := base.setStrobe 2 { width := 4, remaining := 1, countdownDue := true }
     s.inReset = false ∧ (s.strobe 2).countdownDue = true ∧ (s.strobe 2).remaining = 1) := by decide +kernel

/-- A first sample, a differing sample before the K-th, and a K-th that `edge` does not select. -/
theorem witness_TriggerSampleFilters :
    (let s := base.setLine 7 { TriggerLine.reset with sampleDue := true }
     s.inReset = false ∧ (s.line 7).sampleDue = true ∧ (s.line 7).accepted = none) ∧
    (∀ k ∈ [1, 2],
      let s := base.setLine 7 { TriggerLine.reset with
        edge := .falling, accepted := some .low, runLength := k, sampleDue := true }
      s.inReset = false ∧ (s.line 7).sampleDue = true ∧ ((s.line 7).depth ≤ (s.line 7).runLength + 1 ↔ k = 2)) := by
  decide +kernel

/-- One list with entries for each clause: PENDING ONCE and EVERY; DRAINING, IGNORE and a full HOLD_ONE; HOLD_ONE; RESTART. -/
theorem witness_QualifiedEdgeWalksTheList :
    (let line := TriggerLine.mk .rising 1 1 0 (some .low) 0 [1, 2, 3, 4, 5, 6, 7] true
     let on := fun (st : EntryState) (m : Mode) (p : Retrigger) => inState st (prog 1 2 4 2) (.onTrigger 0 m p)
     let s := (((((((base.setLine 0 line).setEntry 1 (on .pending .once .ignore)).setEntry 2
       (on .pending .every .restart)).setEntry 3 (on .draining .every .restart)).setEntry 4
       (on .running .every .ignore)).setEntry 5 { on .running .every .holdOne with heldTrigger := some 0 }).setEntry 6
       (on .running .every .holdOne)).setEntry 7 (on .running .every .restart)
     s.inReset = false ∧ (s.line 0).sampleDue = true ∧ (s.line 0).accepted = some .low ∧
       (s.line 0).depth ≤ (s.line 0).runLength + 1 ∧ (s.line 0).edge = .rising ∧ (s.line 0).subs.Nodup ∧
       (∀ e ∈ [(1 : Fin 64), 2], (s.entry e).state = .pending ∧ (s.entry e).start.bind Start.line? = some 0) ∧
       (s.entry 3).isEvery = true ∧ (s.entry 3).state = .draining ∧
       (s.entry 4).isEvery = true ∧ (s.entry 4).start = some (.onTrigger 0 .every .ignore) ∧
       (s.entry 5).isEvery = true ∧ (s.entry 5).start = some (.onTrigger 0 .every .holdOne) ∧
       (s.entry 5).heldTrigger ≠ none ∧ (s.entry 6).heldTrigger = none ∧
       (s.entry 6).start = some (.onTrigger 0 .every .holdOne) ∧
       (s.entry 7).start = some (.onTrigger 0 .every .restart) ∧ (s.entry 7).progWithStaged.Lawful) := by decide +kernel

/-- A disabled source; a sample that agrees; one before the K-th; the K-th INACTIVE; the K-th ACTIVE of a QUIET and of a
LATCHED source. The depth is 3. -/
theorem witness_TripFilterSampleFilters :
    (base.Steady ∧ (base.trip .a).enabled = false) ∧
    (∀ k ∈ [1, 2], ∀ st ∈ [TripState.quiet, .latched],
      let s := base.setTrip .a { TripSource.reset with enabled := true, runLength := k, state := st, group := 0x8001 }
      s.Steady ∧ (s.trip .a).enabled = true ∧ (s.trip .a).inputState = .inactive ∧
        ((s.trip .a).runLength + 1 < (s.trip .a).depth ↔ k = 1)) ∧
    (let s := base.setTrip .b { TripSource.reset with enabled := true, runLength := 2, inputState := .active, state := .held }
     s.Steady ∧ (s.trip .b).enabled = true ∧ (s.trip .b).depth ≤ (s.trip .b).runLength + 1) := by decide +kernel

theorem witness_TripInputChangesTheState :
    (∀ st ∈ [TripState.quiet, .latched],
      let s := base.setTrip .a { TripSource.reset with enabled := true, state := st, group := 0x8001 }
      s.Steady ∧ (s.trip .a).enabled = true ∧ (s.trip .a).inputState = .inactive ∧ (s.trip .a).state = st) ∧
    (let s := base.setTrip .b { TripSource.reset with enabled := true, inputState := .active, state := .held }
     s.Steady ∧ (s.trip .b).enabled = true ∧ (s.trip .b).inputState = .active) := by decide +kernel

/-- The least depth with an empty run, and the greatest with the longest run. -/
theorem witness_TripRunIsKSamples :
    (∀ k ∈ [(1, 0), (15, 14)],
      let s := base.setTrip .a { TripSource.reset with enabled := true, depth := k.1, runLength := k.2 }
      s.Steady ∧ (s.trip .a).enabled = true ∧ (s.trip .a).runLength < (s.trip .a).depth) := by decide +kernel

/-- A closed link with each kind of buffer; an open transaction with 63 and with 64 bytes kept. -/
theorem witness_TransactionOpensAndReceives :
    (∀ b ∈ [Buffer.empty, .ready [1], .executing (.answered 0 Answer.ok)],
      (base.setBuffer b).inReset = false ∧ (base.setBuffer b).link.transaction = .closed) ∧
    (∀ n ∈ [63, 64], ∀ tr ∈ [Transaction.ordinary, .discarding],
      let s := base.setLink { Link.reset with transaction := tr, received := List.replicate n 0, count := n }
      s.inReset = false ∧ s.link.transaction = tr ∧ (s.link.received.length < 64 ↔ n = 63)) := by decide +kernel

/-- No byte; 1, 3 and 4 bytes; lengths 60 and 61; one byte too few; a wrong CRC; an unknown code; a wrong length; a request. -/
theorem witness_CsNRiseJudges :
    (∀ f ∈ [[], [0x00], [0x00, 5, 0], [0x00, 5, 0, 0x41], [0x00, 5, 61, 0x41], frameOf 0x12 5 (List.replicate 60 7),
        (frameOf 0x16 5 [9]).dropLast, [0x00, 5, 0, 0x40], frameOf 0x04 5 [], frameOf 0x00 5 [7], frameOf 0x16 5 [9]],
      ∀ tr ∈ [Transaction.ordinary, .discarding, .waitHigh],
      let s := base.setLink { Link.reset with transaction := tr, received := f, count := f.length }
      s.inReset = false ∧ s.link.transaction ≠ .closed ∧ s.link.received.length = min 64 s.link.count) := by decide +kernel

theorem witness_ExecutionEndBuildsTheResponse :
    (let s := base.setBuffer (.executing (.answered 7 ⟨.setFailed, [1, 4]⟩))
     s.inReset = false ∧ s.link.buffer = .executing (.answered 7 ⟨.setFailed, [1, 4]⟩)) := by decide +kernel

theorem witness_TakePointThenEnd :
    (let s := base.setBuffer (.executing (.waiting (.query 7 0)))
     s.inReset = false ∧ isRequest (.query 7 0) = true ∧ s.link.buffer = .executing (.waiting (.query 7 0))) := by
  decide +kernel

/-- A tick event in progress, and another request in execution. -/
theorem witness_RequestFindsASteadyPart :
    (let s := (dispatching (inState .pending (prog 1 1 4 2) (atT 0)) 0 0).setBuffer (.executing (.waiting (.query 7 0)))
     s.inReset = false ∧ isRequest (.query 8 0) = true ∧ s.link.buffer ≠ .executing (.waiting (.query 8 0))) := by
  decide +kernel

/-- The shortest frame, and the longest a SCHEDULE_SET can have. -/
theorem witness_FrameIsJudgedToBeTheRequest :
    (∀ c ∈ [Instr.nop 0xFF, .scheduleSet 0 53 1 ⟨0, 0, 0, 0, 0⟩ (List.replicate 53 0)],
      let s := base.setLink { Link.reset with transaction := .ordinary }
      s.inReset = false ∧ s.link.transaction = .ordinary ∧ s.link.received = [] ∧ s.link.count = 0 ∧
        c.wellFormed = true ∧ c.frame.isSome = true) ∧ (List.replicate 53 (0 : Byte)).length = (53 : Byte).toNat := by
  decide +kernel

/-- A steady part and a request that is refused on it, for the last clause too. -/
theorem witness_EveryRequestIsAnswered :
    base.Steady ∧ isRequest (.ack 3 0) = true ∧
      after (.ack 3 0) base (fun t => t.link.buffer.frame.getD 0 0 != 0) = true := by decide +kernel

theorem witness_NopOnlyAnswers : base.Steady := by decide +kernel

/-- A free timebase and a busy one; the dividers 0, 1, 256 and 257. -/
theorem witness_TimeRequests :
    base.Steady ∧ (base.setEntry 63 (inState .draining (prog 1 1 4 2) (atT 0))).Steady ∧
      (ofBytes2 0 0).toNat = 0 ∧ (ofBytes2 0 1).toNat = 1 ∧ (ofBytes2 1 0).toNat = 256 ∧ (ofBytes2 1 1).toNat = 257 := by
  decide +kernel

/-- Entry number 64; a scheduled entry; a FREE entry 63 with a valid and with an invalid programme. -/
theorem witness_DefineWritesTheProgramme :
    base.Steady ∧ 64 ≤ (64 : Byte).toNat ∧
      (let s := base.setEntry 63 (inState .pending (prog 1 1 4 2) (atT 0))
       s.Steady ∧ (63 : Fin 64).val = (63 : Byte).toNat ∧ (s.entry 63).state ≠ .free ∧ (s.entry 63).state ≠ .idle) ∧
      (base.entry 63).state = .free ∧ (progOn 15 1 1 2 0).Lawful ∧ ¬ (progOn 15 2 1 2 0).Lawful ∧ (15 : Byte).toNat < 16 := by
  decide +kernel

theorem witness_ScheduleChecksInOrder : base.Steady ∧ 64 ≤ (64 : Byte).toNat ∧ (63 : Fin 64).val = (63 : Byte).toNat := by
  decide +kernel

/-- An instant at `now`, and one tick before it with late_ok. -/
theorem witness_ScheduleAtTime :
    (let s := base.setEntry 63 (idle (progOn 15 1 1 4 2))
     s.Steady ∧ (63 : Fin 64).val = (63 : Byte).toNat ∧ (s.entry 63).state = .idle ∧ s.LaneFree 63 ∧
       ¬ signedDiff 0 s.now < 0 ∧ (0 : Byte).toNat ≤ 1 ∧ signedDiff 0xFFFFFFFF s.now < 0 ∧ (1 : Byte).toNat ≤ 1) := by
  decide +kernel

theorem witness_ScheduleOnTrigger :
    (let s := base.setEntry 63 (idle (progOn 15 1 1 4 2))
     s.Steady ∧ (63 : Fin 64).val = (63 : Byte).toNat ∧ (s.entry 63).state = .idle ∧ s.LaneFree 63 ∧
       (2 : Byte).toNat ≤ 2) := by decide +kernel

/-- An heir of the predecessor's lane, and an entry on a lane of its own. -/
theorem witness_ScheduleAfter :
    (∀ l ∈ [(3 : Fin 16), 15],
      let s := ((base.setEntry 63 (idle (progOn l 1 1 4 2))).setEntry 0 (inState .pending (progOn 3 1 1 4 2) (atT 9))).setLane
        3 { Lane.reset with owner := some 0 }
      s.Steady ∧ (63 : Fin 64).val = (63 : Byte).toNat ∧ (s.entry 63).state = .idle ∧ (0 : Fin 64) ≠ 63 ∧
        (s.entry 0).scheduled = true ∧ (s.entry 0).successor = none ∧
        (if l = 3 then (s.lane 3).trippedBy = TrippedBy.empty ∧ (s.lane 3).owner = some 0 ∧ (s.lane 3).heir = none
          else s.LaneFree 63)) := by decide +kernel

theorem witness_ScheduleSetIsAllOrNone :
    base.Steady ∧ (List.replicate 53 (0 : Byte)).length ≤ maxMembers ∧ (List.replicate 8 (0 : Byte)).length ≤ 8 := by
  decide +kernel

/-- The first number that names no entry; a FREE entry; one in each other state that is refused; a PENDING one. -/
theorem witness_AmendOfAPendingEntry :
    base.Steady ∧ 64 ≤ (64 : Byte).toNat ∧ (63 : Fin 64).val = (63 : Byte).toNat ∧ (base.entry 63).state = .free ∧
    (∀ st ∈ [EntryState.idle, .draining, .done, .pending],
      let s := base.setEntry 63 (inState st (prog 1 1 4 2) (atT 9))
      s.Steady ∧ (s.entry 63).state = st) := by decide +kernel

theorem witness_AmendOfARunningEntry :
    (let s := base.setEntry 63 (runningFrom (prog 1 1 4 2) (atT 9) 9 10)
     s.Steady ∧ (63 : Fin 64).val = (63 : Byte).toNat ∧ (s.entry 63).state = .running) := by decide +kernel

theorem witness_SingleEntryRequestChecks :
    base.Steady ∧ 64 ≤ (64 : Byte).toNat ∧ (63 : Fin 64).val = (63 : Byte).toNat := by decide +kernel

/-- A RUNNING entry; a PENDING EVERY entry without and with a waiting successor. -/
theorem witness_DrainEndsAtTheCycle :
    (let s := base.setEntry 63 (runningFrom (prog 1 1 4 2) (atT 9) 9 10)
     s.Steady ∧ (63 : Fin 64).val = (63 : Byte).toNat ∧ (s.entry 63).state = .running) ∧
    (let s := base.setEntry 63 (inState .pending (prog 1 1 4 2) (.onTrigger 7 .every .ignore))
     s.Steady ∧ (s.entry 63).state = .pending ∧ (s.entry 63).isEvery = true ∧ (s.entry 63).successor = none ∧
       (s.entry 63).successor ≠ some 63) ∧
    (let s := (base.setEntry 63 { inState .pending (prog 1 1 4 2) (.onTrigger 7 .every .ignore) with
        successor := some 0 }).setEntry 0 { inState .pending (prog 0 1 1 0) (.after 63) with predecessor := some 63 }
     s.Steady ∧ (s.entry 63).state = .pending ∧ (s.entry 63).isEvery = true ∧ (s.entry 63).successor = some 0 ∧
       (s.entry 63).successor ≠ some 63 ∧ (s.entry 0).state = .pending ∧ (s.entry 0).staged = Staged.none ∧ (s.entry 0).prog.Lawful) := by
  decide +kernel

/-- An entry in no chain, and one with a chain of two waiting entries behind it, the first its heir. -/
theorem witness_CancelRetiresAtOnce :
    (let s := base.setEntry 63 (runningFrom (prog 1 1 4 2) (atT 9) 9 10)
     s.Steady ∧ (63 : Fin 64).val = (63 : Byte).toNat ∧ (s.entry 63).scheduled = true ∧ (s.entry 63).successor = none) ∧
    (let s := ((((base.setEntry 63 { runningFrom (progOn 1 1 1 4 2) (atT 9) 9 10 with successor := some 6 }).setEntry 6
        (waitingOn 63 1 (some 7))).setEntry 7 (waitingOn 6 2 none)).setLane 1
          { Lane.reset with owner := some 63, heir := some 6 }).setLane 2 { Lane.reset with owner := some 7 }
     s.Steady ∧ (s.entry 63).scheduled = true ∧ (s.entry 63).successor = some 6 ∧ (s.entry 6).scheduled = true ∧
       (s.entry 6).successor = some 7 ∧ (s.entry 7).scheduled = true ∧
       after (.cancel 0 63) s (fun t => decide ((t.entry 6).outcome = some .chainBroken ∧
         (t.entry 7).outcome = some .chainBroken ∧ (t.lane 1).heir = none ∧ (t.lane 2).owner = none)) = true) := by
  decide +kernel

theorem witness_AckAndReleaseClear :
    (let s := (base.setEntry 63 (done (prog 1 1 4 2) .drained)).setEntry 0 (idle (prog 1 1 4 2))
     s.Steady ∧ (63 : Fin 64).val = (63 : Byte).toNat ∧ (s.entry 63).state = .done ∧
       (0 : Fin 64).val = (0 : Byte).toNat ∧ (s.entry 0).state = .idle) := by decide +kernel

/-- A FREE and a DONE record, and one with a strobe and each kind of start. -/
theorem witness_QueryReportsTheWholeRecord :
    (∀ start ∈ [Start.atTime 0xFFFFFFFF true, .onTrigger 7 .every .holdOne, .after 63],
      (base.setEntry 63 (inState .running { prog 1 1 4 2 with strobe := some ⟨3, .inactive⟩ } start)).Steady) ∧
    base.Steady ∧ (63 : Fin 64).val = (63 : Byte).toNat ∧ (done (prog 1 1 4 2) .drained).PartsLawful ∧
      queryPayload 63 Entry.free = queryPayload 63 (base.entry 63) := by decide +kernel

/-- The greatest value of each field that is in range, and the least that is not. -/
theorem witness_TriggerAndStrobeConfig :
    base.Steady ∧ 7 < (8 : Byte).toNat ∧ 3 < (4 : Byte).toNat ∧ 16 < (17 : Byte).toNat ∧ 15 < (16 : Byte).toNat ∧
      (7 : Fin 8).val = (7 : Byte).toNat ∧ (3 : Byte).toNat ≤ 3 ∧ 1 ≤ (16 : Byte).toNat ∧ (16 : Byte).toNat ≤ 16 ∧
      1 ≤ (15 : Byte).toNat ∧ (15 : Byte).toNat ≤ 15 ∧ (3 : Fin 4).val = (3 : Byte).toNat ∧ (255 : Byte) ≠ 0 := by
  decide +kernel

theorem witness_LaneRequests :
    base.Steady ∧ 15 < (16 : Byte).toNat ∧ 1 < (2 : Byte).toNat ∧ 2 < (3 : Byte).toNat ∧ 3 < (4 : Byte).toNat ∧
      (15 : Fin 16).val = (15 : Byte).toNat ∧ (1 : Byte).toNat ≤ 1 ∧ (2 : Byte).toNat ≤ 2 ∧ (3 : Byte).toNat ≤ 3 := by
  decide +kernel

/-- A tripped lane, an owned one and one without claim. -/
theorem witness_LaneLevelsByPrecedence :
    (let s := (base.setLane 0 { Lane.reset with trippedBy := ⟨false, false, true⟩ }).setLane 15
        { Lane.reset with owner := some 63, call := .active }
     s.inReset = false ∧ (s.lane 0).trippedBy ≠ TrippedBy.empty ∧ (s.lane 15).trippedBy = TrippedBy.empty ∧
       (s.lane 15).owner ≠ none ∧ (s.lane 1).trippedBy = TrippedBy.empty ∧ (s.lane 1).owner = none) := by decide +kernel

/-- Fields at and beyond their range; each state of a source with an input, and of SOFT. -/
theorem witness_TripRequests :
    base.Steady ∧ 1 < (2 : Byte).toNat ∧ 15 < (16 : Byte).toNat ∧ (15 : Byte).toNat ≤ 15 ∧ 2 < (3 : Byte).toNat ∧
    (∀ st ∈ [TripState.quiet, .held, .latched], ∀ i ∈ [TripInput.a, .b],
      let s := { base.setTrip i { TripSource.reset with enabled := true, state := st } with soft := ⟨1, st⟩ }
      s.Steady ∧ (s.trip i).state = st ∧ s.soft.state = st) := by decide +kernel

/-- SOFT QUIET, and SOFT LATCHED with the lanes of the TRIP in its group; an owner of a lane tripped with a successor on a lane
of its own, an entry in front of it, and one in no chain. -/
theorem witness_TripTripsTheGroup :
    (base.Steady ∧ (0x8001 : LaneGroup) ≠ 0 ∧ base.soft.state ≠ .held) ∧
    (let s := { base with soft := ⟨0xFFFF, .latched⟩ }
     s.Steady ∧ s.soft.state ≠ .held ∧ s.soft.state = .latched ∧ (0x8001 : LaneGroup) &&& ~~~s.soft.group = 0) ∧
    (let s := ((((base.setEntry 5 { runningFrom (progOn 0 1 1 4 0) (.after 4) 0 1 with successor := some 6 }).setEntry 6
        { inState .pending (progOn 1 1 1 4 0) (.after 5) with predecessor := some 5 }).setEntry 4
          { inState .pending (prog 1 1 4 0) (.onTrigger 0 .once .ignore) with successor := some 5 }).setLane 0
            { Lane.reset with owner := some 5 }).setLane 1 { Lane.reset with owner := some 6 }
     s.Steady ∧ (s.entry 5).scheduled = true ∧ s.HoldsUntripped 0x8001 5 ∧ (s.entry 6).scheduled = true ∧
       ¬ s.HoldsUntripped 0x8001 6 ∧ ¬ s.HoldsUntripped 0x8001 4 ∧ (s.entry 4).successor = some 5) := by
  decide +kernel

theorem witness_SummaryAgreesWithAttention : base.Steady := by decide +kernel

theorem witness_SoftResetFreesAndKeeps : base.Steady := by decide +kernel

/-- A lawful part with an entry that runs, owns a tripped lane's neighbour and waits in the due list, and a TICK_EVENT in
its queue. -/
def lawful : State :=
  ((({ base with
    now := 50
    due := [⟨51, 5⟩]
    soft := ⟨0x0008, .latched⟩
    pending := [.tickEvent 0 tickUnits] }.setEntry 5 (runningFrom (progOn 2 1 2 4 2) (atT 50) 50 51)).setLane 2
      { Lane.reset with owner := some 5 }).setLane 3 { Lane.reset with trippedBy := ⟨false, false, true⟩ })

/-- A step from the lawful part gives a next state. -/
theorem witness_EveryStepKeeps_step : (match step lawful with | .next _ => true | _ => false) = true := by decide +kernel

theorem witness_EveryStepKeepsTheRanges : lawful.InRange := by decide +kernel

theorem witness_EveryStepKeepsTheLaneLaw : lawful.LanesLawful := by decide +kernel

theorem witness_EveryStepKeepsTheTripLaw : lawful.TripsLawful := by decide +kernel

theorem witness_EveryStepKeepsTheEntryLaws : lawful.EntriesLawful := by decide +kernel

theorem witness_EveryStepKeepsTheDueLaw : lawful.DueLawful := by decide +kernel

theorem witness_EveryStepKeepsTheLinkLaw : lawful.link.Lawful := by decide +kernel

theorem witness_ADoneEntryKeepsItsRecord :
    (let s := base.setEntry 63 (done (prog 1 1 4 2) .drained)
     (s.entry 63).state = .done ∧ s.link.buffer.isWaiting = false ∧
       (match exec (.ack 0 62) s with | .next _ => true | _ => false) = true ∧ (62 : Byte).toNat ≠ (63 : Fin 64).val) := by
  decide +kernel

end Sys2Proof.Tests
end

section
/-! SUPPORT. What a retirement, the running of entries, the walk, a dispatch and a request can do to a strobe line, and which
units each request leaves as they were: one lemma per operation, on which the ranges of the counts rest. -/

namespace Sys2Proof.Machine

/-! ### Retirement leaves the strobe lines alone (R28) -/

@[simp] theorem State.clearSuccessor_strobes (s : State) (p e : Fin 64) : (s.clearSuccessor p e).strobes = s.strobes := by
  unfold State.clearSuccessor
  split <;> rfl

@[simp] theorem State.unlinkPredecessor_strobes (s : State) (e : Fin 64) : (s.unlinkPredecessor e).strobes = s.strobes := by
  unfold State.unlinkPredecessor
  split
  · exact s.clearSuccessor_strobes _ _
  · rfl

@[simp] theorem State.unlink_strobes (s : State) (p y : Fin 64) : (s.unlink p y).strobes = s.strobes := by
  unfold State.unlink
  dsimp only
  split <;> simp

@[simp] theorem State.removeDue_strobes (s : State) (e : Fin 64) : (s.removeDue e).strobes = s.strobes := rfl

@[simp] theorem State.joinDue_strobes (s : State) (e : Fin 64) : (s.joinDue e).strobes = s.strobes := rfl

@[simp] theorem State.unsubscribe_strobes (s : State) (e : Fin 64) : (s.unsubscribe e).strobes = s.strobes := by
  obtain ⟨ls, h⟩ := s.unsubscribe_eq e
  rw [h]

@[simp] theorem State.releaseLane_strobes (s : State) (e : Fin 64) (taker : Option (Fin 64)) :
    (s.releaseLane e taker).strobes = s.strobes := by
  obtain ⟨ls, h⟩ := s.releaseLane_eq e taker
  rw [h]

@[simp] theorem State.handLevel_strobes (s : State) (e : Fin 64) (c : Call) : (s.handLevel e c).strobes = s.strobes := by
  obtain ⟨ls, h⟩ := s.handLevel_eq e c
  rw [h]

@[simp] theorem State.retireOne_strobes (s : State) (e : Fin 64) (oc : EntryOutcome) (taker : Option (Fin 64)) :
    (s.retireOne e oc taker).strobes = s.strobes := by
  unfold State.retireOne
  split <;> simp

@[simp] theorem State.breakFrom_strobes (k : Nat) (s : State) (y : Option (Fin 64)) :
    (s.breakFrom k y).strobes = s.strobes := by
  induction k generalizing s y with
  | zero => rfl
  | succ k ih =>
    rcases y with _ | y
    · rfl
    · unfold State.breakFrom
      split
      · rw [ih, State.unlink_strobes, State.retireOne_strobes]
      · exact s.retireOne_strobes _ _ _

@[simp] theorem State.breakBehind_strobes (s : State) (e : Fin 64) : (s.breakBehind e).strobes = s.strobes := by
  unfold State.breakBehind
  split
  · rw [State.breakFrom_strobes, State.unlink_strobes]
  · rfl

@[simp] theorem State.retireBroken_strobes (s : State) (e : Fin 64) (oc : EntryOutcome) :
    (s.retireBroken e oc).strobes = s.strobes := by
  unfold State.retireBroken
  split <;> simp

@[simp] theorem State.entryStep_strobes (s : State) (recorded : List (Fin 64)) :
    (s.entryStep recorded).strobes = s.strobes := by
  have h : (recorded.foldl (fun s e => s.retireOne e .tripped none) s).strobes = s.strobes :=
    List.foldlRecOn (motive := fun t : State => t.strobes = s.strobes) _ _ rfl fun t ht e _ =>
      (t.retireOne_strobes e _ _).trans ht
  exact List.foldlRecOn (motive := fun t : State => t.strobes = s.strobes) _ _ h fun t ht e _ =>
    (t.breakBehind_strobes e).trans ht

@[simp] theorem State.takeTrips_strobes (s : State) (trips : List Trip) : (s.takeTrips trips).strobes = s.strobes := by
  obtain ⟨ls, h⟩ := State.laneSteps_eq trips s
  rw [State.takeTrips, State.entryStep_strobes, h]

/-! ### The running of entries can do one thing to a strobe line: begin a pulse (R109) -/

/-- A strobe line with a pulse begun in this event (R109). -/
def StrobeLine.pulsed (r : StrobeLine) : StrobeLine := { r with remaining := r.width, countdownDue := false }

/-- What the events of runs can do: the frame of a run, and pulses begun on strobe lines. -/
structure State.RunChange (s t : State) : Prop where
  frame : s.RunFrame t
  pulses : ∀ k : Fin 4, t.strobe k = s.strobe k ∨ t.strobe k = (s.strobe k).pulsed

namespace State.RunChange

variable {s t u : State}

theorem refl (s : State) : s.RunChange s := ⟨.refl s, fun _ => .inl rfl⟩

theorem trans (h : s.RunChange t) (h' : t.RunChange u) : s.RunChange u := by
  refine ⟨h.frame.trans h'.frame, fun k => ?_⟩
  rcases h.pulses k with a | a <;> rcases h'.pulses k with b | b <;> rw [b, a]
  · exact .inl rfl
  · exact .inr rfl
  · exact .inr rfl
  · exact .inr rfl

theorem ite {c : Prop} [Decidable c] (ht : s.RunChange t) (hu : s.RunChange u) : s.RunChange (if c then t else u) := by
  split
  · exact ht
  · exact hu

end State.RunChange

/-- A frame that leaves the strobe lines alone. -/
theorem State.RunFrame.change {s t : State} (h : s.RunFrame t) (hk : t.strobes = s.strobes) : s.RunChange t :=
  ⟨h, fun k => .inl (by rw [State.strobe, State.strobe, hk])⟩

theorem State.setEntry_change (s : State) (e : Fin 64) (r : Entry) : s.RunChange (s.setEntry e r) :=
  (s.setEntry_frame e r).change rfl

theorem State.retireOne_change (s : State) (e : Fin 64) (oc : EntryOutcome) (taker : Option (Fin 64)) :
    s.RunChange (s.retireOne e oc taker) := (s.retireOne_frame e oc taker).change (by simp)

theorem State.retireBroken_change (s : State) (e : Fin 64) (oc : EntryOutcome) : s.RunChange (s.retireBroken e oc) :=
  (s.retireBroken_frame e oc).change (by simp)

theorem State.insertItem_change (s : State) (e : Fin 64) : s.RunChange (s.insertItem e) :=
  (s.insertItem_frame e).change (by unfold State.insertItem; split <;> simp)

theorem State.strobeRequest_change (s : State) (k : Fin 4) (e : Fin 64) : s.RunChange (s.strobeRequest k e) := by
  refine .ite ⟨s.setStrobe_frame k _ rfl rfl, fun x => ?_⟩ (s.setEntry_change _ _)
  rw [s.strobe_setStrobe]
  split
  · next h => exact .inr (h ▸ rfl)
  · exact .inl rfl

theorem State.serveStrobe_change (s : State) (e : Fin 64) (served : Bool) : s.RunChange (s.serveStrobe e served) := by
  unfold State.serveStrobe
  split
  · exact .ite (s.strobeRequest_change _ _) (.refl s)
  · exact .refl s

theorem State.handLevel_change (s : State) (e : Fin 64) (c : Call) : s.RunChange (s.handLevel e c) :=
  (s.handLevel_frame e c).change (by simp)

theorem State.follow_change (s : State) (e : Fin 64) (served : Bool) : s.RunChange (s.follow e served) :=
  ((s.handLevel_change _ _).trans (State.serveStrobe_change _ _ _)).trans (State.insertItem_change _ _)

/-- The entry's record written, and what follows it: the shape of every start and action (R43, R49). -/
theorem State.setEntry_follow_change (s : State) (e : Fin 64) (r : Entry) (served : Bool) :
    s.RunChange ((s.setEntry e r).follow e served) := (s.setEntry_change e r).trans (State.follow_change _ _ _)

theorem State.startInEvent_change (s : State) (e : Fin 64) (start : Instant) (unserved : Bool) :
    s.RunChange (s.startInEvent e start unserved) := s.setEntry_follow_change _ _ _

theorem State.startSuccessor_change (s : State) (p y : Fin 64) (start : Instant) :
    s.RunChange (s.startSuccessor p y start) :=
  ((s.unlink_frame p y).change (by simp)).trans (.ite (State.startInEvent_change _ _ _ _) (.refl _))

theorem State.retireWell_change (s : State) (e : Fin 64) (oc : EntryOutcome) (start : Instant) :
    s.RunChange (s.retireWell e oc start) := by
  unfold State.retireWell
  split
  · exact (s.retireOne_change _ _ _).trans (State.startSuccessor_change _ _ _ _)
  · exact s.retireOne_change _ _ _

theorem State.afterRun_change (s : State) (e : Fin 64) (t : Instant) (served : Bool) :
    s.RunChange (s.afterRun e t served) := by
  unfold State.afterRun
  refine .ite (s.retireWell_change _ _ _) ?_
  split
  · exact (s.setEntry_change _ _).trans (State.handLevel_change _ _ _)
  · exact (s.setEntry_change _ _).trans (State.startInEvent_change _ _ _ _)
  · exact s.retireWell_change _ _ _

theorem State.actFinal_change (s : State) (e : Fin 64) (r : Entry) (t : Instant) : s.RunChange (s.actFinal e r t) :=
  ((s.setEntry_change _ _).trans (State.serveStrobe_change _ _ _)).trans (State.afterRun_change _ _ _ _)

theorem State.actRunning_change (s : State) (e : Fin 64) (t : Instant) : s.RunChange (s.actRunning e t) :=
  .ite (s.setEntry_follow_change _ _ _)
    (.ite (.ite (s.actFinal_change _ _ _) (s.setEntry_follow_change _ _ _)) (s.setEntry_follow_change _ _ _))

theorem State.removeDue_change (s : State) (e : Fin 64) : s.RunChange (s.removeDue e) := (s.removeDue_frame e).change rfl

theorem State.takeAction_change (s : State) (e : Fin 64) (t : Instant) : s.RunChange (s.takeAction e t) := by
  refine (s.removeDue_change e).trans ?_
  unfold State.takeAction
  dsimp only
  split
  · exact State.setEntry_follow_change _ _ _ _
  · exact State.actRunning_change _ _ _
  · exact State.actRunning_change _ _ _
  · exact .refl _
  · exact .refl _
  · exact .refl _

/-! ### The walk and the dispatch -/

theorem State.triggerStart_change (s : State) (n : Fin 8) (e : Fin 64) (mode : Mode) (stamp : Instant) :
    s.RunChange (s.triggerStart n e mode stamp) := by
  cases mode
  · exact ((s.setEntry_change _ _).trans ((State.setSubs_frame _ n _).change rfl)).trans (State.insertItem_change _ _)
  · exact (s.setEntry_change _ _).trans (State.insertItem_change _ _)

theorem State.visit_change (s : State) (n : Fin 8) (stamp : Instant) (e : Fin 64) : s.RunChange (s.visit n stamp e) := by
  unfold State.visit
  repeat' split
  · exact s.triggerStart_change _ _ _ _
  · unfold State.retrigger
    split
    · exact s.setEntry_change _ _
    · exact s.startInEvent_change _ _ _
    · exact .ite (s.setEntry_change _ _) (s.setEntry_change _ _)
  · exact s.setEntry_change _ _
  · exact .refl s
  · exact .refl s

theorem State.walk_change (s : State) (n : Fin 8) (stamp : Instant) : s.RunChange (s.walk n stamp) :=
  List.foldlRecOn _ _ (.refl s) fun t ht e _ => ht.trans (t.visit_change n stamp e)

theorem State.overrunOne_change (s : State) : s.RunChange s.overrunOne := by
  unfold State.overrunOne
  split
  · exact (s.removeDue_change _).trans (State.retireBroken_change _ _ _)
  · exact .refl s

/-- A handing of the action step writes the dispatch, and takes one action (R72). -/
theorem State.actionOne_change (s : State) : ∃ d, (s.setDispatch d).RunChange s.actionOne := by
  unfold State.actionOne
  split
  · exact ⟨_, State.takeAction_change _ _ _⟩
  · exact ⟨s.dispatch, .refl s⟩

end Sys2Proof.Machine
end

section
/-! SUPPORT. The counts in their ranges: what each unit of work keeps, up to a whole tick event and a CLK edge's samples. -/

namespace Sys2Proof.Machine

/-! ### The ranges, record by record -/

/-- The timebase in its ranges (section 1.1, R12). -/
def State.TimebaseInRange (s : State) : Prop :=
  1 ≤ s.divider ∧ s.divider ≤ 256 ∧ 1 ≤ s.tickLength ∧ s.tickLength ≤ 256 ∧ s.tickPhase < s.tickLength

/-- A trigger line in its ranges (Table 5-1). -/
def TriggerLine.InRange (r : TriggerLine) : Prop :=
  1 ≤ r.sampleDivider ∧ r.sampleDivider ≤ 16 ∧ 1 ≤ r.depth ∧ r.depth ≤ 15 ∧ r.sampleCount < r.sampleDivider
    ∧ r.runLength < r.depth

/-- A strobe line in its ranges (Table 6-5). -/
def StrobeLine.InRange (r : StrobeLine) : Prop := 1 ≤ r.width ∧ r.width ≤ 255 ∧ r.remaining ≤ 255

/-- The filter of a trip source in its ranges (Table 8-1). -/
def TripSource.InRange (r : TripSource) : Prop := 1 ≤ r.depth ∧ r.depth ≤ 15 ∧ r.runLength < r.depth

/-- The law of ranges, record by record. -/
theorem State.inRange_iff (s : State) : s.InRange ↔ s.TimebaseInRange ∧ (∀ n : Fin 8, (s.line n).InRange)
    ∧ (∀ k : Fin 4, (s.strobe k).InRange) ∧ ∀ i : TripInput, (s.trip i).InRange := by
  constructor
  · rintro ⟨ht, hl, hk, ha, hb⟩
    exact ⟨ht, hl, hk, fun i => by cases i <;> assumption⟩
  · rintro ⟨ht, hl, hk, hi⟩
    exact ⟨ht, hl, hk, hi .a, hi .b⟩

theorem State.InRange.line {s : State} (h : s.InRange) (n : Fin 8) : (s.line n).InRange := (s.inRange_iff.mp h).2.1 n

theorem State.InRange.strobe {s : State} (h : s.InRange) (k : Fin 4) : (s.strobe k).InRange :=
  (s.inRange_iff.mp h).2.2.1 k

theorem State.InRange.trip {s : State} (h : s.InRange) (i : TripInput) : (s.trip i).InRange :=
  (s.inRange_iff.mp h).2.2.2 i

/-- A part whose timebase, lines, strobe lines and filters are those of a part in range is in range. -/
theorem State.InRange.congr {s t : State} (h : s.InRange) (ht : s.SameTimebase t) (hl : t.lines = s.lines)
    (hk : t.strobes = s.strobes) (ha : t.tripA = s.tripA) (hb : t.tripB = s.tripB) : t.InRange := by
  obtain ⟨-, h1, h2, h3⟩ := ht
  unfold State.InRange State.line State.strobe at *
  rwa [h1, h2, h3, hl, hk, ha, hb]

/-- A write of a line in range (R95). -/
theorem State.InRange.setLine {s : State} (h : s.InRange) (n : Fin 8) {r : TriggerLine} (hr : r.InRange) :
    (s.setLine n r).InRange := by
  obtain ⟨ht, hl, hk, hi⟩ := s.inRange_iff.mp h
  refine (State.inRange_iff _).mpr ⟨ht, fun x => ?_, hk, hi⟩
  rw [s.line_setLine]
  split
  · exact hr
  · exact hl x

/-- A write of a strobe line in range (R112). -/
theorem State.InRange.setStrobe {s : State} (h : s.InRange) (k : Fin 4) {r : StrobeLine} (hr : r.InRange) :
    (s.setStrobe k r).InRange := by
  obtain ⟨ht, hl, hk, hi⟩ := s.inRange_iff.mp h
  refine (State.inRange_iff _).mpr ⟨ht, hl, fun x => ?_, hi⟩
  rw [s.strobe_setStrobe]
  split
  · exact hr
  · exact hk x

/-- A write of a source whose filter is in range (R137). -/
theorem State.InRange.setTrip {s : State} (h : s.InRange) (i : TripInput) {r : TripSource} (hr : r.InRange) :
    (s.setTrip i r).InRange := by
  obtain ⟨ht, hl, hk, hi⟩ := s.inRange_iff.mp h
  cases i
  · exact (State.inRange_iff _).mpr ⟨ht, hl, hk, fun x => by cases x; exacts [hr, hi .b]⟩
  · exact (State.inRange_iff _).mpr ⟨ht, hl, hk, fun x => by cases x; exacts [hi .a, hr]⟩

theorem State.InRange.setDispatch {s : State} (h : s.InRange) (d : Option DispatchWork) : (s.setDispatch d).InRange := h

theorem State.InRange.setLink {s : State} (h : s.InRange) (l : Link) : (s.setLink l).InRange := h

theorem State.InRange.setBuffer {s : State} (h : s.InRange) (b : Buffer) : (s.setBuffer b).InRange := h

/-- A choice between two parts in range. -/
theorem State.InRange.ite {c : Prop} [Decidable c] {s t : State} (hs : s.InRange) (ht : t.InRange) :
    (if c then s else t).InRange := by
  split
  · exact hs
  · exact ht

/-! ### The runs, the samples and the countdowns -/

/-- A line that differs in its list alone is in range. -/
theorem TriggerLine.InRange.of_sameFilter {a b : TriggerLine} (h : a.InRange)
    (hb : { b with subs := [] } = { a with subs := [] }) : b.InRange := by
  obtain ⟨-, h1, h2, h3, -, h4, -⟩ := TriggerLine.fields_of_sameFilter hb
  unfold TriggerLine.InRange at *
  rwa [h1, h2, h3, h4]

/-- The events of runs keep the ranges: a pulse begun is as long as its line's width (R109). -/
theorem State.RunChange.inRange {s t : State} (h : s.RunChange t) (hs : s.InRange) : t.InRange := by
  obtain ⟨ht, hl, hk, hi⟩ := s.inRange_iff.mp hs
  obtain ⟨⟨⟨-, h1, h2, h3⟩, ⟨ha, hb, -⟩, -⟩, -, hf, -⟩ := h.frame
  refine (State.inRange_iff _).mpr ⟨?_, fun n => (hl n).of_sameFilter (hf n), fun k => ?_, fun i => ?_⟩
  · unfold State.TimebaseInRange at *
    rwa [h1, h2, h3]
  · rcases h.pulses k with e | e
    · rw [e]; exact hk k
    · obtain ⟨w1, w2, -⟩ := hk k
      rw [e]
      exact ⟨w1, w2, w2⟩
  · cases i
    · rw [State.trip, ha]; exact hi .a
    · rw [State.trip, hb]; exact hi .b

/-- A run length that starts anew keeps a line in range. -/
theorem TriggerLine.InRange.restartRun {r : TriggerLine} (h : r.InRange) (a : Option Level) (d : Bool) :
    { r with accepted := a, runLength := 0, sampleDue := d }.InRange := by
  obtain ⟨h1, h2, h3, h4, h5, -⟩ := h
  exact ⟨h1, h2, h3, h4, h5, h3⟩

/-- A sample keeps the ranges: the run length stays below the filter depth (R82). -/
theorem State.InRange.filterSample {s : State} (h : s.InRange) (n : Fin 8) (level : Level) :
    (s.filterSample n level).InRange := by
  have hn := h.line n
  unfold State.filterSample
  dsimp only
  split
  · exact h.setLine n (hn.restartRun _ _)
  · split
    · exact h.setLine n (hn.restartRun _ _)
    · split
      · have ha : (s.setLine n { s.line n with accepted := some level, runLength := 0 }).InRange :=
          h.setLine n (hn.restartRun _ _)
        exact .ite ((State.walk_change _ _ _).inRange ha) ha
      · next hk =>
        obtain ⟨h1, h2, h3, h4, h5, -⟩ := hn
        exact h.setLine n ⟨h1, h2, h3, h4, h5, Nat.lt_of_not_le hk⟩

/-- The sample a line owes keeps the ranges (R81, R82). -/
theorem State.InRange.takeSample {s : State} (h : s.InRange) (n : Fin 8) (level : Level) :
    (s.takeSample n level).InRange := by
  have hr : { s.line n with sampleDue := false }.InRange := h.line n
  exact .ite ((h.setLine n hr).filterSample n level) h

/-- A countdown keeps the ranges: `remaining` falls (R110). -/
theorem State.InRange.countdown {s : State} (h : s.InRange) (k : Fin 4) : (s.countdown k).InRange := by
  obtain ⟨h1, h2, h3⟩ := h.strobe k
  exact .ite (h.setStrobe k ⟨h1, h2, (Nat.sub_le _ _).trans h3⟩) h

/-! ### The tick event -/

theorem State.InRange.overrunStep (k : Nat) {s : State} (h : s.InRange) : (s.overrunStep k).InRange := by
  induction k generalizing s with
  | zero => exact h
  | succ k ih => exact ih (s.overrunOne_change.inRange h)

theorem State.InRange.actionOne {s : State} (h : s.InRange) : s.actionOne.InRange := by
  obtain ⟨d, hd⟩ := s.actionOne_change
  exact hd.inRange (h.setDispatch d)

theorem State.InRange.actionStep (k : Nat) {s : State} (h : s.InRange) : (s.actionStep k).InRange := by
  induction k generalizing s with
  | zero => exact h
  | succ k ih => exact ih h.actionOne

/-- A part of a tick event keeps the ranges (R2). -/
theorem State.InRange.takeUnit {s : State} (h : s.InRange) (u : TickUnit) : (s.takeUnit u).InRange := by
  cases u with
  | dispatch => exact .ite (((h.overrunStep _).actionStep _).setDispatch none) h
  | sample n => exact h.takeSample n _
  | countdown k => exact h.countdown k

theorem State.InRange.takeUnits {s : State} (h : s.InRange) (units : List TickUnit) : (s.takeUnits units).InRange :=
  List.foldlRecOn units State.takeUnit h fun _ ht u _ => ht.takeUnit u

theorem State.InRange.settle {s : State} (h : s.InRange) : s.settle.InRange := by
  unfold State.settle
  exact h.takeUnits tickUnits

/-- A tick event counted keeps a line in range: the count returns to zero at the divider (R81). -/
theorem TriggerLine.InRange.count {r : TriggerLine} (h : r.InRange) : r.count.InRange := by
  obtain ⟨h1, h2, h3, h4, h5, h6⟩ := h
  unfold TriggerLine.count
  split
  · exact ⟨h1, h2, h3, h4, h1, h6⟩
  · next hc => exact ⟨h1, h2, h3, h4, Nat.lt_of_not_le hc, h6⟩

theorem State.InRange.countLines {s : State} (h : s.InRange) : s.countLines.InRange :=
  List.foldlRecOn _ _ h fun _ ht n _ => ht.setLine n (ht.line n).count

theorem StrobeLine.InRange.owing {r : StrobeLine} (h : r.InRange) (owed : Bool) : { r with countdownDue := owed }.InRange := h

theorem State.InRange.oweCountdowns {s : State} (h : s.InRange) : s.oweCountdowns.InRange :=
  List.foldlRecOn _ _ h fun _ ht k _ => ht.setStrobe k ((ht.strobe k).owing _)

/-- The end of a tick keeps the ranges: the next tick is as long as the recorded divider (R1, R81, R110). -/
theorem State.InRange.beginTick {s : State} (h : s.InRange) (levels : BitVec 8) : (s.beginTick levels).InRange := by
  obtain ⟨⟨h1, h2, -⟩, hrest⟩ := h
  unfold State.beginTick
  exact State.InRange.oweCountdowns (State.InRange.countLines ⟨⟨h1, h2, h1, h2, h1⟩, hrest⟩)

/-- A tick event keeps the ranges (R1, R2). -/
theorem State.InRange.tick {s : State} (h : s.InRange) (levels : BitVec 8) (order : List TickUnit) :
    (s.tick levels order).InRange := by
  unfold State.tick
  exact (h.settle.beginTick levels).takeUnits order

/-! ### Trips -/

/-- Trips of one event keep the ranges: they change lanes and end runs (R131, R132). -/
theorem State.InRange.takeTrips {s : State} (h : s.InRange) (trips : List Trip) : (s.takeTrips trips).InRange := by
  obtain ⟨ls, hls⟩ := State.laneSteps_eq trips s
  have hc := (s.takeTrips_frame trips).change (by rw [State.takeTrips_strobes, hls])
  exact hc.inRange (by rw [hls]; exact h)

theorem TripSource.InRange.changedTo {r : TripSource} (h : r.InRange) (read : InputState) : (r.changedTo read).InRange := by
  cases read <;> exact ⟨h.1, h.2.1, h.1⟩

/-- A sample of a source keeps its run length below its filter depth (R128). -/
theorem TripSource.InRange.atEdge {r : TripSource} (h : r.InRange) (level : Level) : (r.atEdge level).InRange := by
  unfold TripSource.atEdge TripSource.sampled
  repeat' split
  · exact ⟨h.1, h.2.1, h.1⟩
  · exact h.changedTo _
  · next hk => exact ⟨h.1, h.2.1, Nat.lt_of_not_le hk⟩
  · exact h

theorem TripSource.InRange.afterRun {r : TripSource} (h : r.InRange) (read : InputState) : (r.afterRun read).InRange := by
  unfold TripSource.afterRun
  repeat' split
  · exact ⟨h.1, h.2.1, h.1⟩
  · exact h.changedTo _
  · exact h

/-- A source's new record in range, with the trip it brings (R129). -/
theorem State.InRange.changeSource {s : State} (h : s.InRange) (i : TripInput) {r : TripSource} (hr : r.InRange) :
    (s.changeSource i r).InRange := (h.setTrip i hr).takeTrips _

theorem State.InRange.setTripPin {s : State} (h : s.InRange) (i : TripInput) (level : Level) :
    (s.setTripPin i level).InRange := by cases i <;> exact h

end Sys2Proof.Machine
end

section
/-! SUPPORT. Requests: each has one owner, and each leaves the pins, the link and the queue alone and keeps the ranges. -/

namespace Sys2Proof.Machine

/-! ### A request and its owner -/

/-- A command that is a request is served by one owner, and its execution is the request to that owner (R146). -/
theorem exec_of_isRequest {c : Instr} (h : isRequest c = true) :
    ∃ own, (∀ s, serve c s = some (own s)) ∧ ∀ s, exec c s = .next (s.request c own) := by
  cases c
  case powerOn | resetNAssert | resetNRelease | tickEvent | overrun | action | strobePulseEnd | triggerSample
    | qualifiedEdge | tripInputActive | tripInputInactive | csNFall | csNRise | executionEnd | tripFilterSample
    | byteReceived => exact Bool.noConfusion h
  all_goals exact ⟨_, fun _ => rfl, fun _ => rfl⟩

/-- A request that addresses an entry leaves what it leaves of a named entry, or a refusal (R14). -/
theorem withEntry_ind {P : State × Answer → Prop} (b : Byte) (s : State) (f : Fin 64 → State × Answer)
    (hb : P (s, .refusal .badEntry)) (hf : ∀ e, P (f e)) : P (withEntry b s f) := by
  unfold withEntry
  split
  · exact hf _
  · exact hb

/-! ### The entry requests change runs alone -/

theorem State.claimLane_change {s t : State} {e : Fin 64} {start : Start} (h : s.claimLane e start = .ok t) :
    s.RunChange t := by
  unfold State.claimLane at h
  split at h
  · exact Except.ok.inj h ▸ .refl s
  · next l _ =>
    split at h
    · next l' hl =>
      rw [← Except.ok.inj h]
      refine (s.setLane_frame l l' ?_ ?_ ?_ ?_).change rfl
      all_goals
        unfold Lane.claim at hl
        repeat' split at hl
        all_goals cases hl
        all_goals rfl
    · cases h

theorem State.place_change (s : State) (e : Fin 64) (start : Start) : s.RunChange (s.place e start) := by
  unfold State.place
  refine State.RunChange.trans (s.setEntry_change e ((s.entry e).scheduleAt start s.now)) ?_
  unfold State.joinStructure
  split
  · exact State.insertItem_change _ _
  · exact (State.setSubs_frame _ _ _).change rfl
  · exact State.setEntry_change _ _ _

theorem State.scheduleChecked_change {s t : State} {e : Fin 64} {f : StartFields} (h : s.scheduleChecked e f = .ok t) :
    s.RunChange t := by
  unfold State.scheduleChecked at h
  split at h
  · cases h
  · split at h
    · cases h
    · next hc =>
      split at h
      · cases h
      · rw [← Except.ok.inj h]
        exact (State.claimLane_change hc).trans (State.place_change _ _ _)

theorem State.scheduleMember_change {s t : State} {f : StartFields} {b : Byte} (h : s.scheduleMember f b = .ok t) :
    s.RunChange t := by
  unfold State.scheduleMember at h
  split at h
  · cases h
  · split at h
    · exact State.scheduleChecked_change h
    · cases h

theorem State.scheduleMembers_change {f : StartFields} {members : List Byte} {k : Nat} {s t : State}
    (h : s.scheduleMembers f k members = .ok t) : s.RunChange t := by
  induction members generalizing s k with
  | nil => exact Except.ok.inj h ▸ .refl s
  | cons b rest ih =>
    unfold State.scheduleMembers at h
    split at h
    · next hb => exact (State.scheduleMember_change hb).trans (ih h)
    · cases h

theorem reqDefine_change (entry lane : Byte) (d w p : Ticks) (n : Count) (strobe notify : Byte) (s : State) :
    s.RunChange (reqDefine entry lane d w p n strobe notify s).1 := by
  refine withEntry_ind (P := fun r => s.RunChange r.1) _ _ _ (.refl s) fun e => ?_
  repeat' split
  · exact .refl s
  · exact s.setEntry_change _ _
  · exact .refl s
  · exact .refl s

theorem reqSchedule_change (entry kind : Byte) (block : StartBlock) (s : State) :
    s.RunChange (reqSchedule entry kind block s).1 := by
  refine withEntry_ind (P := fun r => s.RunChange r.1) _ _ _ (.refl s) fun e => ?_
  repeat' split
  · exact .refl s
  · next h => exact State.scheduleChecked_change h
  · exact .refl s
  · exact .refl s

theorem reqScheduleSet_change (count kind : Byte) (block : StartBlock) (members : List Byte) (s : State) :
    s.RunChange (reqScheduleSet count kind block members s).1 := by
  unfold reqScheduleSet
  repeat' split
  · exact .refl s
  · exact .refl s
  · exact .refl s
  · next h => exact State.scheduleMembers_change h
  · exact .refl s

theorem reqAmend_change (entry mask : Byte) (d w p : Ticks) (n : Count) (s : State) :
    s.RunChange (reqAmend entry mask d w p n s).1 := by
  refine withEntry_ind (P := fun r => s.RunChange r.1) _ _ _ (.refl s) fun e => ?_
  dsimp only
  repeat' split
  · exact .refl s
  · exact .refl s
  · exact s.setEntry_change _ _
  · exact .refl s
  · exact .refl s
  · exact .refl s
  · exact .refl s
  · exact s.setEntry_change _ _
  · exact .refl s
  · exact .refl s

theorem reqDrain_change (entry : Byte) (s : State) : s.RunChange (reqDrain entry s).1 := by
  refine withEntry_ind (P := fun r => s.RunChange r.1) _ _ _ (.refl s) fun e => ?_
  dsimp only
  repeat' split
  · exact s.setEntry_change _ _
  · exact s.retireWell_change _ _ _
  · exact .refl s

theorem reqCancel_change (entry : Byte) (s : State) : s.RunChange (reqCancel entry s).1 := by
  refine withEntry_ind (P := fun r => s.RunChange r.1) _ _ _ (.refl s) fun e => ?_
  split
  · exact s.retireBroken_change _ _
  · exact .refl s

theorem reqQuery_change (entry : Byte) (s : State) : s.RunChange (reqQuery entry s).1 :=
  withEntry_ind (P := fun r => s.RunChange r.1) _ _ _ (.refl s) fun _ => .refl s

theorem reqAck_change (entry : Byte) (s : State) : s.RunChange (reqAck entry s).1 := by
  refine withEntry_ind (P := fun r => s.RunChange r.1) _ _ _ (.refl s) fun e => ?_
  split
  · exact s.setEntry_change _ _
  · exact .refl s

theorem reqRelease_change (entry : Byte) (s : State) : s.RunChange (reqRelease entry s).1 := by
  refine withEntry_ind (P := fun r => s.RunChange r.1) _ _ _ (.refl s) fun e => ?_
  split
  · exact s.setEntry_change _ _
  · exact .refl s

/-! ### Every request leaves the pins, the link and the queue alone, and keeps the ranges -/

/-- What no owner of a request touches (R146): the pins, the link, the queue and the count of edges. -/
def State.SameSurroundings (s t : State) : Prop :=
  t.pins = s.pins ∧ t.link = s.link ∧ t.pending = s.pending ∧ t.clkEdges = s.clkEdges

/-- What every owner of a request keeps. -/
structure State.ServedFrame (s t : State) : Prop where
  surroundings : s.SameSurroundings t
  inRange : s.InRange → t.InRange

theorem State.ServedFrame.refl (s : State) : s.ServedFrame s := ⟨⟨rfl, rfl, rfl, rfl⟩, id⟩

theorem State.ServedFrame.trans {s t u : State} (h : s.ServedFrame t) (k : t.ServedFrame u) : s.ServedFrame u := by
  obtain ⟨⟨h1, h2, h3, h4⟩, h5⟩ := h
  obtain ⟨⟨k1, k2, k3, k4⟩, k5⟩ := k
  exact ⟨⟨k1.trans h1, k2.trans h2, k3.trans h3, k4.trans h4⟩, fun h => k5 (h5 h)⟩

/-- A write of a source whose filter stays in range. -/
theorem State.setTrip_served (s : State) (i : TripInput) {r : TripSource} (hr : s.InRange → r.InRange) :
    s.ServedFrame (s.setTrip i r) := by
  refine ⟨?_, fun h => h.setTrip i (hr h)⟩
  cases i <;> exact ⟨rfl, rfl, rfl, rfl⟩

theorem State.RunChange.served {s t : State} (h : s.RunChange t) : s.ServedFrame t :=
  ⟨h.frame.outside.2.2, h.inRange⟩

/-- A configuration in range is written in range; a change restarts the filter (R95, R96). -/
theorem TriggerLine.InRange.configure {r : TriggerLine} (h : r.InRange) (edge : EdgeSelect) {sd k : Nat}
    (hsd : 1 ≤ sd ∧ sd ≤ 16) (hk : 1 ≤ k ∧ k ≤ 15) : (r.configure edge sd k).InRange := by
  obtain ⟨-, -, -, -, h5, h6⟩ := h
  unfold TriggerLine.configure
  dsimp only
  split
  · next he =>
    obtain ⟨rfl, rfl⟩ := he
    exact ⟨hsd.1, hsd.2, hk.1, hk.2, h5, h6⟩
  · exact ⟨hsd.1, hsd.2, hk.1, hk.2, hsd.1, hk.1⟩

/-- A configuration in range is written in range; a source that does not keep its filter restarts it (R137). -/
theorem TripSource.InRange.configure {r : TripSource} (h : r.InRange) (en : Bool) (al : Level) {k : Nat} (g : LaneGroup)
    (hk : 1 ≤ k ∧ k ≤ 15) : (r.configure en al k g).InRange := by
  unfold TripSource.configure
  dsimp only
  split
  · next he =>
    have hd : r.depth = k := by
      simp only [TripSource.keepsFilter, Bool.and_eq_true, decide_eq_true_eq] at he
      exact he.2
    exact ⟨hk.1, hk.2, hd ▸ h.2.2⟩
  · exact ⟨hk.1, hk.2, hk.1⟩

theorem sampleDividerOf_range {b : Byte} {n : Nat} (h : sampleDividerOf b = some n) : 1 ≤ n ∧ n ≤ 16 := by
  unfold sampleDividerOf at h
  split at h
  · next hb => exact Option.some.inj h ▸ hb
  · cases h

theorem depthOf_range {b : Byte} {n : Nat} (h : depthOf b = some n) : 1 ≤ n ∧ n ≤ 15 := by
  unfold depthOf at h
  split at h
  · next hb => exact Option.some.inj h ▸ hb
  · cases h

theorem reqTriggerConfig_served (line edge sd k : Byte) (s : State) :
    s.ServedFrame (reqTriggerConfig line edge sd k s).1 := by
  unfold reqTriggerConfig
  split
  · next n _ _ _ _ _ hsd hk =>
    exact ⟨⟨rfl, rfl, rfl, rfl⟩, fun h =>
      h.setLine n ((h.line n).configure _ (sampleDividerOf_range hsd) (depthOf_range hk))⟩
  · exact .refl s

/-- A write of a lane touches no count. -/
theorem State.setLane_served (s : State) (l : Fin 16) (r : Lane) : s.ServedFrame (s.setLane l r) :=
  ⟨⟨rfl, rfl, rfl, rfl⟩, id⟩

theorem reqLaneConfig_served (lane polarity safe : Byte) (s : State) :
    s.ServedFrame (reqLaneConfig lane polarity safe s).1 := by
  unfold reqLaneConfig
  repeat' split
  · exact .refl s
  · exact s.setLane_served _ _
  · exact .refl s

theorem reqLaneSet_served (lane value : Byte) (s : State) : s.ServedFrame (reqLaneSet lane value s).1 := by
  unfold reqLaneSet
  repeat' split
  · exact .refl s
  · exact .refl s
  · exact s.setLane_served _ _
  · exact .refl s

theorem reqLaneQuery_served (lane : Byte) (s : State) : s.ServedFrame (reqLaneQuery lane s).1 := by
  unfold reqLaneQuery
  split <;> exact .refl s

theorem reqStrobeConfig_served (strobe width : Byte) (s : State) : s.ServedFrame (reqStrobeConfig strobe width s).1 := by
  unfold reqStrobeConfig
  repeat' split
  · exact .refl s
  · next k _ hw =>
    refine ⟨⟨rfl, rfl, rfl, rfl⟩, fun h => h.setStrobe k ⟨?_, ?_, (h.strobe k).2.2⟩⟩
    · exact Nat.pos_of_ne_zero fun c => hw (BitVec.eq_of_toNat_eq c)
    · exact Nat.le_of_lt_succ width.isLt
  · exact .refl s

theorem reqTripConfig_served (source enabled al k : Byte) (g : LaneGroup) (s : State) :
    s.ServedFrame (reqTripConfig source enabled al k g s).1 := by
  unfold reqTripConfig
  repeat' split
  · exact .refl s
  · next i _ _ _ _ _ _ hk _ =>
    exact s.setTrip_served i fun h => (h.trip i).configure _ _ _ (depthOf_range hk)
  · exact .refl s

theorem reqTrip_served (g : LaneGroup) (s : State) : s.ServedFrame (reqTrip g s).1 := by
  unfold reqTrip
  split
  · exact .refl s
  · exact ⟨(State.tripGroup_outside _ _ _).2.2, fun h => State.InRange.takeTrips (s := s.setSoft (s.soft.tripped g)) h _⟩

theorem State.releaseTrip_served (s : State) (src : TripId) : s.ServedFrame (s.releaseTrip src) := by
  obtain ⟨ls, h⟩ := s.releaseTrip_eq src
  rw [h]
  exact ⟨⟨rfl, rfl, rfl, rfl⟩, id⟩

theorem State.clearSource_served (s : State) (src : TripId) : s.ServedFrame (s.clearSource src) := by
  unfold State.clearSource
  refine .trans ?_ (State.releaseTrip_served _ _)
  cases src
  · exact s.setTrip_served .a fun h => h.trip .a
  · exact s.setTrip_served .b fun h => h.trip .b
  · exact ⟨⟨rfl, rfl, rfl, rfl⟩, id⟩

theorem reqClearTrip_served (source : Byte) (s : State) : s.ServedFrame (reqClearTrip source s).1 := by
  unfold reqClearTrip
  repeat' split
  · exact .refl s
  · exact s.clearSource_served _
  · exact .refl s
  · exact .refl s

theorem State.clearSubscriptions_eq (s : State) : ∃ ls, s.clearSubscriptions = { s with lines := ls } := by
  unfold State.clearSubscriptions
  generalize List.finRange 8 = l
  induction l generalizing s with
  | nil => exact ⟨s.lines, rfl⟩
  | cons a l ih =>
    obtain ⟨ls, h⟩ := ih (s.setLine a { s.line a with subs := [] })
    exact ⟨ls, h.trans rfl⟩

/-- The emptying of the subscription lists keeps the ranges (R97). -/
theorem State.InRange.clearSubscriptions {s : State} (h : s.InRange) : s.clearSubscriptions.InRange :=
  List.foldlRecOn _ _ h fun t ht n _ =>
    ht.setLine n ((ht.line n).of_sameFilter (b := { t.line n with subs := [] }) rfl)

theorem State.clearSubscriptions_served (s : State) : s.ServedFrame s.clearSubscriptions := by
  refine ⟨?_, fun h => h.clearSubscriptions⟩
  obtain ⟨ls, h⟩ := s.clearSubscriptions_eq
  rw [h]
  exact ⟨rfl, rfl, rfl, rfl⟩

theorem State.clearClaims_served (s : State) : s.ServedFrame s.clearClaims := by
  obtain ⟨ls, h⟩ := s.clearClaims_eq
  rw [h]
  exact ⟨⟨rfl, rfl, rfl, rfl⟩, id⟩

theorem reqSoftReset_served (s : State) : s.ServedFrame (reqSoftReset s).1 := by
  have hf : s.ServedFrame ((s.freeEntries.setDue []).setDispatch none) := ⟨⟨rfl, rfl, rfl, rfl⟩, id⟩
  exact (hf.trans (State.clearSubscriptions_served _)).trans (State.clearClaims_served _)

theorem reqSetTime_served (value : Instant) (s : State) : s.ServedFrame (reqSetTime value s).1 := by
  unfold reqSetTime
  split
  · exact .refl s
  · refine ⟨⟨rfl, rfl, rfl, rfl⟩, fun h => ?_⟩
    obtain ⟨⟨h1, h2, -⟩, hrest⟩ := h
    exact ⟨⟨h1, h2, h1, h2, h1⟩, hrest⟩

theorem reqSetDivider_served (value : BitVec 16) (s : State) : s.ServedFrame (reqSetDivider value s).1 := by
  unfold reqSetDivider
  repeat' split
  · exact .refl s
  · exact .refl s
  · next hv _ =>
    refine ⟨⟨rfl, rfl, rfl, rfl⟩, fun h => ?_⟩
    obtain ⟨⟨-, -, h3⟩, hrest⟩ := h
    have hm : 1 ≤ value.toNat ∧ value.toNat ≤ 256 := by omega
    exact ⟨⟨hm.1, hm.2, h3⟩, hrest⟩

/-- Every owner of a request leaves the pins, the link and the queue alone and keeps the ranges (R146). -/
theorem serve_served {c : Instr} {s : State} {r : State × Answer} (h : serve c s = some r) : s.ServedFrame r.1 := by
  cases c <;> cases h
  case nop | readTime | summary => exact .refl s
  case setTime v => exact reqSetTime_served v s
  case setDivider m => exact reqSetDivider_served m s
  case define => exact (reqDefine_change _ _ _ _ _ _ _ _ s).served
  case schedule => exact (reqSchedule_change _ _ _ s).served
  case scheduleSet => exact (reqScheduleSet_change _ _ _ _ s).served
  case amend => exact (reqAmend_change _ _ _ _ _ _ s).served
  case drain => exact (reqDrain_change _ s).served
  case cancel => exact (reqCancel_change _ s).served
  case query => exact (reqQuery_change _ s).served
  case ack => exact (reqAck_change _ s).served
  case release => exact (reqRelease_change _ s).served
  case triggerConfig => exact reqTriggerConfig_served _ _ _ _ s
  case laneConfig => exact reqLaneConfig_served _ _ _ s
  case laneSet => exact reqLaneSet_served _ _ s
  case laneQuery => exact reqLaneQuery_served _ s
  case strobeConfig => exact reqStrobeConfig_served _ _ s
  case tripConfig => exact reqTripConfig_served _ _ _ _ _ s
  case trip => exact reqTrip_served _ s
  case clearTrip => exact reqClearTrip_served _ s
  case softReset => exact reqSoftReset_served s

end Sys2Proof.Machine
end

section
/-! SUPPORT. Every command and every CLK edge keeps the ranges. -/

namespace Sys2Proof.Machine

/-! ### Executions -/

theorem State.InRange.serveSettled {s : State} (h : s.InRange) (c : Instr) : (s.serveSettled c).1.InRange := by
  unfold State.serveSettled
  cases hs : serve c s.settle with
  | none => exact h
  | some r => exact (serve_served hs).inRange h.settle

/-- The end of an execution keeps the ranges: the request it takes does (R146). -/
theorem State.InRange.endExecution {s : State} (h : s.InRange) : s.endExecution.InRange := by
  unfold State.endExecution
  split
  · exact (h.serveSettled _).setBuffer _
  · exact h.setBuffer _
  · exact h
  · exact h

/-- A command outside reset keeps the ranges where its effect does. -/
theorem State.InRange.whenRunning {s : State} (h : s.InRange) {f : State → State} (hf : (f s).InRange) :
    (s.whenRunning f).InRange := .ite h hf

/-- A request keeps the ranges, at its take point and as a whole execution (R146). -/
theorem State.InRange.request {s : State} (h : s.InRange) {c : Instr} {own : State → State × Answer}
    (hc : ∀ s, serve c s = some (own s)) : (s.request c own).InRange :=
  h.whenRunning (.ite (((serve_served (hc _)).inRange h.settle).setLink _)
    (((serve_served (hc _)).inRange h.endExecution.settle).setBuffer _))

/-! ### The CLK edge -/

theorem State.InRange.clkTimebase {s : State} (h : s.InRange) (order : List TickUnit) : (s.clkTimebase order).InRange := by
  unfold State.clkTimebase
  split
  · exact h.tick _ _
  · next hp =>
    obtain ⟨⟨h1, h2, h3, h4, -⟩, hrest⟩ := h
    exact ⟨⟨h1, h2, h3, h4, Nat.lt_of_not_le hp⟩, hrest⟩

theorem State.InRange.clkExecution {s : State} (h : s.InRange) : s.clkExecution.InRange := by
  unfold State.clkExecution
  split
  · exact .ite h.endExecution (h.setLink _)
  · exact h
  · exact h

theorem State.InRange.sourceAtEdge {s : State} (h : s.InRange) (restarted : List TripInput) (i : TripInput) :
    (s.sourceAtEdge restarted i).InRange := by
  unfold State.sourceAtEdge
  split
  · exact h.trip i
  · exact (h.trip i).atEdge _

theorem State.InRange.clkTrips {s : State} (h : s.InRange) (restarted : List TripInput) : (s.clkTrips restarted).InRange := by
  have hu := (h.setTrip .a (h.sourceAtEdge restarted .a)).setTrip .b (h.sourceAtEdge restarted .b)
  unfold State.clkTrips
  dsimp only
  split
  · exact hu.takeTrips _
  · next tag g _ =>
    have hv : (((s.setTrip .a (s.sourceAtEdge restarted .a)).setTrip .b (s.sourceAtEdge restarted .b)).setSoft
      (s.soft.tripped g)).InRange := hu
    exact (hv.takeTrips _).setBuffer _

theorem State.InRange.clkUnit {s : State} (h : s.InRange) (order : List TickUnit) (restarted : List TripInput)
    (u : Config.EdgeUnit) : (s.clkUnit order restarted u).InRange := by
  cases u with
  | timebase => exact h.clkTimebase order
  | tripSamples => exact h.clkTrips restarted
  | execution => exact .ite (h.clkTrips restarted) h.clkExecution

/-- A part of an edge keeps the ranges, overtaken or not (log entry 4). -/
theorem EdgeWork.take_inRange (w : EdgeWork) (tickOrder : List TickUnit) (h : w.state.InRange) (u : Config.EdgeUnit) :
    (w.take tickOrder u).state.InRange := by
  unfold EdgeWork.take
  split
  · exact h
  · exact h.clkUnit tickOrder w.restarted u

/-- A tick that begins on the edge is as long as the recorded divider (R12). -/
theorem State.InRange.beginsWithDivider {s : State} (h : s.InRange) : s.beginsWithDivider.InRange := by
  unfold State.beginsWithDivider
  split
  · next h0 =>
    obtain ⟨⟨h1, h2, -⟩, hrest⟩ := h
    exact ⟨⟨h1, h2, h1, h2, h0 ▸ h1⟩, hrest⟩
  · exact h

theorem State.InRange.clkPartsIn {s : State} (h : s.InRange) (order : List Config.EdgeUnit) (tickOrder : List TickUnit) :
    (s.clkPartsIn order tickOrder).InRange := by
  unfold State.clkPartsIn
  exact State.InRange.beginsWithDivider
    (List.foldlRecOn (motive := fun w : EdgeWork => w.state.InRange) _ _ h fun w hw u _ => w.take_inRange tickOrder hw u)

/-- A CLK edge keeps the ranges (R1, R12, R128, R146). -/
theorem State.InRange.clkEdge {s : State} (h : s.InRange) : s.clkEdge.InRange := by
  refine h.whenRunning ?_
  have hp : s.settle.clkParts.InRange := by
    unfold State.clkParts
    exact h.settle.clkPartsIn _ _
  exact hp

/-! ### The commands -/

@[simp] theorem State.reset_entry (e : Fin 64) : State.reset.entry e = Entry.free := by
  simp [State.entry, State.reset]

@[simp] theorem State.reset_line (n : Fin 8) : State.reset.line n = TriggerLine.reset := by
  simp [State.line, State.reset]

@[simp] theorem State.reset_lane (l : Fin 16) : State.reset.lane l = Lane.reset := by
  simp [State.lane, State.reset]

@[simp] theorem State.reset_strobe (k : Fin 4) : State.reset.strobe k = StrobeLine.reset := by
  simp [State.strobe, State.reset]

/-- The counts right after reset are in their ranges (R3, R97, R114, R138). -/
theorem State.reset_inRange : State.reset.InRange := by
  refine (State.inRange_iff _).mpr ⟨?_, fun n => ?_, fun k => ?_, fun i => ?_⟩
  · unfold State.TimebaseInRange
    decide
  · rw [State.reset_line]
    unfold TriggerLine.InRange
    decide
  · rw [State.reset_strobe]
    unfold StrobeLine.InRange
    decide
  · unfold TripSource.InRange
    cases i <;> decide


theorem State.InRange.blocksReset (s : State) (pins : Pins) (transaction : Transaction) :
    (s.blocksReset pins transaction).InRange :=
  State.reset_inRange.congr ⟨rfl, rfl, rfl, rfl⟩ rfl rfl rfl rfl

/-- An event of a trip input keeps the ranges (R128, R129). -/
theorem State.InRange.tripReads {s : State} (h : s.InRange) (i : TripInput) (read : InputState) :
    (s.tripReads i read).InRange := by
  unfold State.tripReads
  split
  · have hp := h.settle.setTripPin i ((s.trip i).levelFor read)
    exact hp.changeSource i ((hp.trip i).afterRun read)
  · exact h

theorem State.InRange.sampleTripPin {s : State} (h : s.InRange) (i : TripInput) (level : Level) :
    (s.sampleTripPin i level).InRange :=
  (h.setTripPin i level).changeSource i ((h.trip i).atEdge level)

/-- Every command answers a next state, and keeps the ranges. -/
theorem exec_inRange {s : State} (h : s.InRange) (c : Instr) : ∃ t, exec c s = .next t ∧ t.InRange := by
  rcases hr : isRequest c with _ | _
  · cases c
    case powerOn | resetNAssert => exact ⟨_, rfl, State.InRange.blocksReset _ _ _⟩
    case resetNRelease => exact ⟨_, rfl, .ite (State.InRange.blocksReset _ _ _) h⟩
    case tickEvent levels order => exact ⟨_, rfl, h.whenRunning (h.tick levels order)⟩
    case overrun => exact ⟨_, rfl, h.whenRunning (.ite (s.overrunOne_change.inRange h) h)⟩
    case action => exact ⟨_, rfl, h.whenRunning h.actionOne⟩
    case strobePulseEnd k => exact ⟨_, rfl, h.whenRunning (.ite (h.countdown k) h)⟩
    case triggerSample n level =>
      exact ⟨_, rfl, h.whenRunning (.ite (State.InRange.takeSample (s := s.setTrg n level) h n level) h)⟩
    case qualifiedEdge n =>
      refine ⟨_, rfl, h.whenRunning ?_⟩
      split
      · exact .ite (State.InRange.takeSample (s := s.setTrg n _) h n _) h
      · exact h
    case tripInputActive i => exact ⟨_, rfl, h.whenRunning (h.tripReads i _)⟩
    case tripInputInactive i => exact ⟨_, rfl, h.whenRunning (h.tripReads i _)⟩
    case tripFilterSample i level => exact ⟨_, rfl, h.whenRunning (h.settle.sampleTripPin i level)⟩
    case csNFall => exact ⟨_, rfl, .ite h (.ite h h)⟩
    case csNRise | byteReceived => exact ⟨_, rfl, .ite h h⟩
    case executionEnd => exact ⟨_, rfl, h.whenRunning h.endExecution⟩
    all_goals exact Bool.noConfusion hr
  · obtain ⟨own, hs, he⟩ := exec_of_isRequest hr
    exact ⟨_, he s, h.request hs⟩

/-- Settles O54: a step is a command or a CLK edge, and each of their operations keeps the ranges. -/
theorem everyStepKeepsTheRanges : Obligations.EveryStepKeepsTheRanges := by
  unfold Obligations.EveryStepKeepsTheRanges
  intro s t h hst
  unfold step at hst
  split at hst
  · next c rest _ =>
    obtain ⟨u, hu, hr⟩ := exec_inRange (s := s.withPending rest) h c
    rwa [← Host.Outcome.next.inj (hu.symm.trans hst)]
  · rw [← Host.Outcome.next.inj hst]
    exact h.clkEdge

end Sys2Proof.Machine
end

section
/-! SUPPORT. The resets, the tick event and the requests as commands: what each leaves of the units it does not work on. -/

namespace Sys2Proof.Machine

/-! ### The resets (R3, R36, R80, R97, R108, R114, R138, R153) -/

/-- The blocks after a reset hold the reset values. -/
theorem State.blocksReset_atResetValues (s : State) (pins : Pins) (transaction : Transaction) :
    (s.blocksReset pins transaction).AtResetValues :=
  ⟨⟨rfl, rfl, rfl, rfl⟩, State.reset_entry, rfl, rfl, State.reset_line, State.reset_lane, State.reset_strobe,
    fun i _ => by cases i <;> rfl, rfl, rfl, rfl, rfl, rfl⟩

/-- Settles O3: the three resets write the blocks' reset values, and differ in the pins and the transaction alone. -/
theorem resetsGiveTheResetValues : Obligations.ResetsGiveTheResetValues := by
  unfold Obligations.ResetsGiveTheResetValues
  intro s
  refine ⟨⟨_, rfl, s.blocksReset_atResetValues _ _, rfl, rfl, fun h => ?_⟩,
    ⟨_, rfl, s.blocksReset_atResetValues _ _, rfl, rfl, rfl⟩,
    fun h => ⟨_, congrArg Host.Outcome.next (if_pos h), s.blocksReset_atResetValues _ _, rfl, rfl, rfl⟩⟩
  simp [State.blocksReset, transactionAfterReset, h]

/-! ### While RESET_N is low (R3, R36, R149, R153) -/

/-- Nothing that waits for RESET_N high takes place in reset. -/
theorem State.whenRunning_of_inReset {s : State} (h : s.inReset = true) (f : State → State) : s.whenRunning f = s :=
  if_pos h

/-- What waits for RESET_N high takes place outside reset. -/
theorem State.whenRunning_of_running {s : State} (h : s.inReset = false) (f : State → State) : s.whenRunning f = f s :=
  if_neg (by simp [h])

/-- No command but the resets and the edges of CS_N changes a part in reset. -/
theorem exec_of_inReset {s : State} (h : s.inReset = true) {c : Instr} (h1 : c ≠ .powerOn) (h2 : c ≠ .resetNAssert)
    (h3 : c ≠ .resetNRelease) (h4 : c ≠ .csNFall) (h5 : c ≠ .csNRise) : exec c s = .next s := by
  rcases hr : isRequest c with _ | _
  · cases c
    case powerOn | resetNAssert | resetNRelease | csNFall | csNRise => contradiction
    case tickEvent | overrun | action | strobePulseEnd | triggerSample | qualifiedEdge | tripInputActive
      | tripInputInactive | tripFilterSample | byteReceived | executionEnd =>
      exact congrArg Host.Outcome.next (State.whenRunning_of_inReset h _)
    all_goals exact Bool.noConfusion hr
  · obtain ⟨own, -, he⟩ := exec_of_isRequest hr
    rw [he, State.request_of_inReset h]

/-- Settles O4: every effect waits for RESET_N high, and every output is gated by it. -/
theorem nothingHappensInReset : Obligations.NothingHappensInReset := by
  unfold Obligations.NothingHappensInReset
  intro s c h
  exact ⟨exec_of_inReset h,
    congrArg Host.Outcome.next (State.whenRunning_of_inReset (s := s.setPins { s.pins with csN := .low }) h _),
    congrArg Host.Outcome.next (State.whenRunning_of_inReset (s := s.setPins { s.pins with csN := .high }) h _),
    fun l => by simp [State.lanePin, h], fun k => by simp [State.strobePin, h], by simp [State.attnLow, h],
    by simp [State.sdoDriven, h]⟩

/-! ### The laws right after reset -/

theorem State.reset_steady : State.reset.Steady :=
  ⟨rfl, ⟨rfl, fun n => by rw [State.reset_line]; rfl, fun k => by rw [State.reset_strobe]; rfl⟩, rfl⟩

theorem Lane.reset_lawful : Lane.reset.Lawful := by decide

/-- No source holds a lane after reset (R131, R138). -/
theorem State.reset_tripsLawful : State.reset.TripsLawful := by
  refine ⟨by decide, by decide, by decide, fun _ => rfl, fun l => ?_⟩
  rw [State.reset_lane]
  decide +revert

/-- A FREE entry keeps the laws of records (R15). -/
theorem Entry.free_partsLawful : Entry.free.PartsLawful := by
  refine ⟨fun _ => rfl, ?_⟩
  decide

/-- Settles O53: after reset every record is at its reset value, which keeps its law, and the lists are empty. -/
theorem resetKeepsTheLaws : Obligations.ResetKeepsTheLaws := by
  unfold Obligations.ResetKeepsTheLaws
  refine ⟨State.reset_steady, State.reset_inRange, fun l => ?_, State.reset_tripsLawful, fun e => ?_, ?_, by decide⟩
  · rw [State.reset_lane]
    exact Lane.reset_lawful
  · rw [State.reset_entry]
    exact ⟨Entry.free_partsLawful, by decide, nofun⟩
  · refine ⟨List.nodup_nil, fun i hi => absurd hi List.not_mem_nil, fun e he => ?_, List.Pairwise.nil,
      fun i hi => absurd hi List.not_mem_nil⟩
    rw [State.reset_entry] at he
    exact absurd he (by decide)

/-! ### The tick event (R1, R2) -/

/-- A part of a tick event keeps the settings of the lanes (R2). -/
theorem State.takeUnit_lanes (s : State) (u : TickUnit) : s.SameLaneSettings (s.takeUnit u) := by
  cases u with
  | dispatch => exact s.finishDispatch_frame.lanes
  | sample n =>
    by_cases h : (s.line n).sampleDue = true
    · exact (s.takeSample_frame n _ h).lanes
    · have hs : s.takeUnit (.sample n) = s := by simp [State.takeUnit, State.takeSample, h]
      rw [hs]
      exact fun _ => ⟨rfl, rfl, rfl, rfl⟩
  | countdown k => exact (s.countdown_frame k).lanes

theorem State.sameLaneSettings_trans {s t u : State} (h : s.SameLaneSettings t) (k : t.SameLaneSettings u) :
    s.SameLaneSettings u := fun l => by
  obtain ⟨h1, h2, h3, h4⟩ := h l
  obtain ⟨k1, k2, k3, k4⟩ := k l
  exact ⟨k1.trans h1, k2.trans h2, k3.trans h3, k4.trans h4⟩

theorem State.takeUnits_lanes (units : List TickUnit) (s : State) : s.SameLaneSettings (s.takeUnits units) :=
  List.foldlRecOn (motive := s.SameLaneSettings) units _ (fun _ => ⟨rfl, rfl, rfl, rfl⟩) fun t ht u _ =>
    State.sameLaneSettings_trans ht (t.takeUnit_lanes u)

/-- The end of a tick leaves the lanes alone (R1). -/
theorem State.beginTick_lanes (s : State) (levels : BitVec 8) : s.SameLaneSettings (s.beginTick levels) := by
  obtain ⟨ls, ks, h⟩ := s.beginTick_eq levels
  rw [h]
  exact fun _ => ⟨rfl, rfl, rfl, rfl⟩

/-- A tick event keeps the settings of the lanes (R2). -/
theorem State.tick_lanes (s : State) (levels : BitVec 8) (order : List TickUnit) :
    s.SameLaneSettings (s.tick levels order) := by
  have hs : s.SameLaneSettings s.settle := State.takeUnits_lanes tickUnits s
  unfold State.tick
  exact State.sameLaneSettings_trans hs
    (State.sameLaneSettings_trans (s.settle.beginTick_lanes levels) (State.takeUnits_lanes order _))

/-- A tick event changes, of the pins, the levels of the TRG inputs (R84). -/
theorem State.tick_pins (s : State) (levels : BitVec 8) (order : List TickUnit) :
    (s.tick levels order).pins = { s.pins with trg := levels } := by
  obtain ⟨ls, ks, h⟩ := s.settle.beginTick_eq levels
  obtain ⟨-, -, hs, -⟩ := State.takeUnits_outside tickUnits s
  obtain ⟨-, -, ho, -⟩ := State.takeUnits_outside order (s.settle.beginTick levels)
  have hb : (s.settle.beginTick levels).pins = { s.settle.pins with trg := levels } := by rw [h]
  exact ho.trans (hb.trans (by rw [State.settle, hs]))

/-- Settles O6: the tick event ends the tick in progress, and its parts change the runs alone. -/
theorem tickEventAdvancesTheTimebase : Obligations.TickEventAdvancesTheTimebase := by
  unfold Obligations.TickEventAdvancesTheTimebase
  intro s levels order hr
  obtain ⟨⟨hnow, hdiv, hlen, hphase⟩, htrips, hlink, hpending, -⟩ := s.tick_outside levels order
  exact ⟨s.tick levels order, congrArg Host.Outcome.next (State.whenRunning_of_running hr _), hnow, hphase, hlen, hdiv,
    s.tick_pins levels order, hlink, htrips, s.tick_lanes levels order, hpending⟩

/-! ### A request that is not the judged one (R2, R146) -/

theorem State.settle_outside (s : State) : s.SameOutsideRuns s.settle := State.takeUnits_outside tickUnits s

/-- Taking a request leaves the pins as they were, whatever the command (R146). -/
theorem State.serveSettled_surroundings (s : State) (c : Instr) : s.SameSurroundings (s.serveSettled c).1 := by
  obtain ⟨-, -, h1, h2, h3, h4⟩ := s.settle_outside
  unfold State.serveSettled
  cases hs : serve c s.settle with
  | none => exact ⟨rfl, rfl, rfl, rfl⟩
  | some r =>
    obtain ⟨k1, k2, k3, k4⟩ := (serve_served hs).surroundings
    exact ⟨k1.trans h1, k2.trans h2, k3.trans h3, k4.trans h4⟩

/-- The end of an execution leaves the pins as they were (R146). -/
theorem State.endExecution_pins (s : State) : s.endExecution.pins = s.pins := by
  unfold State.endExecution
  split
  · exact (s.serveSettled_surroundings _).1
  · rfl
  · rfl
  · rfl

/-- After its end no execution is in progress (R145, R146). -/
theorem State.endExecution_not_executing (s : State) : s.endExecution.link.buffer.isExecuting = false := by
  unfold State.endExecution
  split
  · rfl
  · rfl
  · next h => rw [h]; rfl
  · next h => rw [h]; rfl

/-- A part whose execution has ended, with the whole of its tick event, is steady (R2, R146). -/
theorem State.endExecution_settle_steady {s : State} (h : s.inReset = false) : s.endExecution.settle.Steady := by
  obtain ⟨-, -, hp, hl, -⟩ := s.endExecution.settle_outside
  refine ⟨?_, s.endExecution.settle_tickWhole, ?_⟩
  · rw [State.inReset, hp, s.endExecution_pins]
    exact h
  · rw [hl]
    exact s.endExecution_not_executing

/-- A request that does not wait is a whole execution (log entry 2). -/
theorem State.request_of_not_waiting {s : State} (h : s.inReset = false) {c : Instr}
    (hb : s.link.buffer ≠ .executing (.waiting c)) (own : State → State × Answer) :
    s.request c own = s.wholeRequest c own :=
  (State.whenRunning_of_running h _).trans (if_neg hb)

/-- Settles O27: such a request is a whole execution, whose owner meets the steady part that the end of the execution in
progress and the whole of the tick event leave. -/
theorem requestFindsASteadyPart : Obligations.RequestFindsASteadyPart := by
  unfold Obligations.RequestFindsASteadyPart
  intro s c hr hc hb
  obtain ⟨own, -, he⟩ := exec_of_isRequest hc
  have hsteady := State.endExecution_settle_steady hr
  refine ⟨s.endExecution, congrArg Host.Outcome.next (State.whenRunning_of_running hr _), hsteady, ?_⟩
  rw [he, he, State.request_of_not_waiting hr hb, State.request_of_steady hsteady]
  rfl

end Sys2Proof.Machine
end

section
/-! SUPPORT. Retirements that break chains (R28, R122, R132): what a part looks like on the way, step by step, and what the
whole of such an event leaves. -/

namespace Sys2Proof.Machine

/-! ### Links of a chain (R116) -/

/-- The link to an entry that retires is cleared at its predecessor (R27). -/
theorem State.unlinkPredecessor_entry (s : State) (e x : Fin 64) :
    (s.unlinkPredecessor e).entry x =
      { s.entry x with
        successor :=
          if (s.entry e).predecessor = some x ∧ (s.entry x).successor = some e then none else (s.entry x).successor } := by
  unfold State.unlinkPredecessor
  split
  · next p hp =>
    rw [s.clearSuccessor_entry, hp]
    by_cases hx : x = p
    · subst hx
      by_cases hs : (s.entry x).successor = some e <;> simp [hs]
    · simp [hx, eq_comm (a := p)]
  · next hp => simp [hp]

/-- A link is removed at both its ends (R116). -/
theorem State.unlink_entry (s : State) (p y x : Fin 64) :
    (s.unlink p y).entry x =
      { s.entry x with
        predecessor := if x = y ∧ (s.entry y).predecessor = some p then none else (s.entry x).predecessor
        successor := if x = p ∧ (s.entry p).successor = some y then none else (s.entry x).successor } := by
  have hc : ∀ z, (s.clearSuccessor p y).entry z =
      { s.entry z with successor := if z = p ∧ (s.entry p).successor = some y then none else (s.entry z).successor } := by
    intro z
    rw [s.clearSuccessor_entry]
    split
    · next h => rw [h.1]
    · rfl
  unfold State.unlink
  dsimp only
  split
  · next h =>
    rw [hc] at h
    rw [State.entry_setEntry, hc, hc]
    by_cases hx : x = y
    · subst hx
      simp [show (s.entry x).predecessor = some p from h]
    · simp [hx]
  · next h =>
    rw [hc] at h
    have hn : (s.entry y).predecessor ≠ some p := h
    simp only [hc, hn, and_false, if_false]

/-- The removal of a link changes the entries alone. -/
theorem State.unlink_eq (s : State) (p y : Fin 64) : ∃ es, s.unlink p y = { s with entries := es } := by
  unfold State.unlink State.clearSuccessor
  dsimp only
  repeat' split
  · exact ⟨_, rfl⟩
  · exact ⟨_, rfl⟩
  · exact ⟨_, rfl⟩
  · exact ⟨s.entries, rfl⟩

@[simp] theorem State.unlink_due (s : State) (p y : Fin 64) : (s.unlink p y).due = s.due := by
  obtain ⟨es, h⟩ := s.unlink_eq p y
  rw [h]

@[simp] theorem State.unlink_lane (s : State) (p y : Fin 64) (l : Fin 16) : (s.unlink p y).lane l = s.lane l := by
  obtain ⟨es, h⟩ := s.unlink_eq p y
  rw [h]
  rfl

@[simp] theorem State.unlink_line (s : State) (p y : Fin 64) (n : Fin 8) : (s.unlink p y).line n = s.line n := by
  obtain ⟨es, h⟩ := s.unlink_eq p y
  rw [h]
  rfl

/-! ### One retirement, unit by unit -/

/-- A retired record is DONE, with its programme and start part as they were (R27). -/
theorem Entry.retiredAs_kept {r r' : Entry} {oc : EntryOutcome} {t : Instant} (h : r.RetiredAs r' oc t) :
    r'.state = .done ∧ r'.prog = r.prog ∧ r'.start = r.start := by
  have hr : r' = _ := h
  rw [hr]
  exact ⟨rfl, rfl, rfl⟩

section Retirement

variable {s : State} {e : Fin 64}

/-- The record of an entry that retires, its successor link aside, is what R27 says. -/
theorem State.retireOne_retiredAs (oc : EntryOutcome) (taker : Option (Fin 64)) (h : (s.entry e).scheduled = true) :
    (s.entry e).RetiredAs { (s.retireOne e oc taker).entry e with successor := none } oc s.now := by
  rw [s.retireOne_entry_self oc taker h]
  have hr := ((s.unlinkPredecessor e).entry e).retired_as oc s.now
  generalize { ((s.unlinkPredecessor e).entry e).retired oc s.now with successor := none } = r at hr ⊢
  rw [s.unlinkPredecessor_entry] at hr
  exact hr

/-- A retirement changes, of another record, the successor link that names the entry alone (R27). -/
theorem State.retireOne_other (oc : EntryOutcome) (taker : Option (Fin 64)) {x : Fin 64} (hx : x ≠ e) :
    (s.retireOne e oc taker).entry x =
      { s.entry x with successor := ((s.retireOne e oc taker).entry x).successor } := by
  rw [s.retireOne_entry_ne oc taker hx]
  split
  · rw [s.unlinkPredecessor_entry]
  · rfl

/-- A retirement clears no successor link but those that name the entry (R27). -/
theorem State.retireOne_successor (oc : EntryOutcome) (taker : Option (Fin 64)) (x : Fin 64) :
    ((s.retireOne e oc taker).entry x).successor = (s.entry x).successor ∨
      (((s.retireOne e oc taker).entry x).successor = none ∧ (s.entry x).successor = some e) := by
  have hu : ((s.unlinkPredecessor e).entry x).successor = (s.entry x).successor ∨
      (((s.unlinkPredecessor e).entry x).successor = none ∧ (s.entry x).successor = some e) := by
    rw [s.unlinkPredecessor_entry]
    dsimp only
    split
    · next h => exact .inr ⟨rfl, h.2⟩
    · exact .inl rfl
  by_cases h : (s.entry e).scheduled = true
  · by_cases hx : x = e
    · subst hx
      rw [s.retireOne_entry_self oc taker h, (Entry.retired_kept _ _ _).2.2]
      exact hu
    · rw [s.retireOne_entry_ne oc taker hx, if_pos h]
      exact hu
  · rw [s.retireOne_of_not_scheduled oc taker (by simpa using h)]
    exact .inl rfl

/-- No entry is scheduled by a retirement, and the one that retires is not scheduled after it (R27). -/
theorem State.retireOne_scheduled (oc : EntryOutcome) (taker : Option (Fin 64)) (x : Fin 64) :
    ((s.retireOne e oc taker).entry x).scheduled = if x = e then false else (s.entry x).scheduled := by
  split
  · next hx =>
    subst hx
    by_cases h : (s.entry x).scheduled = true
    · have hs : ((s.retireOne x oc taker).entry x).state = .done :=
        (Entry.retiredAs_kept (s.retireOne_retiredAs oc taker h)).1
      simp [Entry.scheduled, hs]
    · rw [s.retireOne_of_not_scheduled oc taker (by simpa using h)]
      simpa using h
  · next hx =>
    rw [s.retireOne_other oc taker hx]
    rfl

/-- What is left of the event of a retirement before the lane is released: the record written, the item and the subscription
gone. -/
theorem State.retireOne_unfold (oc : EntryOutcome) (taker : Option (Fin 64)) (h : (s.entry e).scheduled = true) :
    ∃ v : State, s.retireOne e oc taker = (v.unsubscribe e).releaseLane e taker ∧
      v.lanes = s.lanes ∧ v.lines = s.lines ∧ (v.entry e).prog = (s.entry e).prog ∧
      (v.entry e).start = (s.entry e).start := by
  have hl : (s.unlinkPredecessor e).lanes = s.lanes ∧ (s.unlinkPredecessor e).lines = s.lines := by
    unfold State.unlinkPredecessor State.clearSuccessor
    repeat' split
    all_goals exact ⟨rfl, rfl⟩
  refine ⟨((s.unlinkPredecessor e).setEntry e (((s.unlinkPredecessor e).entry e).retired oc s.now)).removeDue e,
    by rw [State.retireOne, if_pos h], hl.1, hl.2, ?_⟩
  have hv : ∀ r, (((s.unlinkPredecessor e).setEntry e r).removeDue e).entry e = r := fun r =>
    State.entry_setEntry_self _ e r
  obtain ⟨hp, hs, -⟩ := ((s.unlinkPredecessor e).entry e).retired_kept oc s.now
  rw [hv, hp, hs, s.unlinkPredecessor_entry]
  exact ⟨rfl, rfl⟩

/-- The lanes after a retirement: the lane the entry names is released (R28, R103). -/
theorem State.retireOne_lane (oc : EntryOutcome) (taker : Option (Fin 64)) (h : (s.entry e).scheduled = true) (l : Fin 16) :
    (s.retireOne e oc taker).lane l =
      if (s.entry e).prog.lane = some l then (s.lane l).released e taker else s.lane l := by
  obtain ⟨v, hv, hlanes, -, hprog, -⟩ := s.retireOne_unfold oc taker h
  have hu : ((v.unsubscribe e).entry e).prog = (s.entry e).prog ∧ (v.unsubscribe e).lane l = s.lane l := by
    obtain ⟨ls, hu⟩ := v.unsubscribe_eq e
    rw [hu, State.lane, State.lane, ← hlanes]
    exact ⟨hprog, rfl⟩
  rw [hv, State.releaseLane_lane, hu.1, hu.2]

/-- The lines after a retirement: the entry leaves the list its start names (R28, R87). -/
theorem State.retireOne_line (oc : EntryOutcome) (taker : Option (Fin 64)) (h : (s.entry e).scheduled = true) (n : Fin 8) :
    (s.retireOne e oc taker).line n =
      if (s.entry e).start.bind Start.line? = some n then
        { s.line n with subs := (s.line n).subs.filter fun y => decide (y ≠ e) }
      else s.line n := by
  obtain ⟨v, hv, -, hlines, -, hstart⟩ := s.retireOne_unfold oc taker h
  obtain ⟨ls, hr⟩ := (v.unsubscribe e).releaseLane_eq e taker
  have hline : ∀ n, v.line n = s.line n := fun n => by rw [State.line, State.line, hlines]
  rw [hv, hr]
  change (v.unsubscribe e).line n = _
  rw [v.unsubscribe_line, hstart, hline]

end Retirement

/-! ### Claims, items and subscriptions only go -/

/-- `t` has no claim, item or subscription that `s` has not. -/
structure State.Fewer (s t : State) : Prop where
  owner : ∀ (l : Fin 16) (e : Fin 64), (t.lane l).owner = some e → (s.lane l).owner = some e
  heir : ∀ (l : Fin 16) (e : Fin 64), (t.lane l).heir = some e → (s.lane l).heir = some e
  due : ∀ i ∈ t.due, i ∈ s.due
  subs : ∀ (n : Fin 8), ∀ e ∈ (t.line n).subs, e ∈ (s.line n).subs

theorem State.Fewer.refl (s : State) : s.Fewer s := ⟨fun _ _ => id, fun _ _ => id, fun _ => id, fun _ _ => id⟩

theorem State.Fewer.trans {s t u : State} (h : s.Fewer t) (k : t.Fewer u) : s.Fewer u :=
  ⟨fun l e c => h.owner l e (k.owner l e c), fun l e c => h.heir l e (k.heir l e c), fun i c => h.due i (k.due i c),
    fun n e c => h.subs n e (k.subs n e c)⟩

/-- An entry without claim, item and subscription stays so. -/
theorem State.Released.fewer {s t : State} {e : Fin 64} (h : s.Released e) (k : s.Fewer t)
    (hp : (t.entry e).prog = (s.entry e).prog) (hs : (t.entry e).start = (s.entry e).start) : t.Released e := by
  obtain ⟨hl, hd, hn⟩ := h
  refine ⟨fun l c => ?_, fun i c => hd i (k.due i c), fun n c hm => ?_⟩
  · obtain ⟨ho, hh⟩ := hl l (hp ▸ c)
    exact ⟨fun c => ho (k.owner l e c), fun c => hh (k.heir l e c)⟩
  · exact hn n (hs ▸ c) (k.subs n e hm)

/-- The release of a claim that no hand-off takes leaves no claim that was not there (R103). -/
theorem Lane.released_fewer (l : Lane) (e x : Fin 64) :
    ((l.released e none).owner = some x → l.owner = some x ∧ x ≠ e) ∧
      ((l.released e none).heir = some x → l.heir = some x ∧ x ≠ e) := by
  unfold Lane.released
  by_cases ho : l.owner = some e
  · rw [if_pos ho, if_neg fun c => c.1 c.2]
    exact ⟨nofun, nofun⟩
  · rw [if_neg ho]
    have hx : l.owner = some x → x ≠ e := fun c d => ho (d ▸ c)
    split
    · exact ⟨fun c => ⟨c, hx c⟩, nofun⟩
    · next hh => exact ⟨fun c => ⟨c, hx c⟩, fun c => ⟨c, fun d => hh (d ▸ c)⟩⟩

/-- The release of a claim that an entry does not have changes nothing (R103). -/
theorem Lane.released_of_no_claim {l : Lane} {e : Fin 64} (ho : l.owner ≠ some e) (hh : l.heir ≠ some e)
    (taker : Option (Fin 64)) : l.released e taker = l := by
  rw [Lane.released, if_neg ho, if_neg hh]

/-- A retirement takes claims, items and subscriptions away (R28). -/
theorem State.retireOne_fewer (s : State) (e : Fin 64) (oc : EntryOutcome) : s.Fewer (s.retireOne e oc none) := by
  by_cases h : (s.entry e).scheduled = true
  · refine ⟨fun l x c => ?_, fun l x c => ?_, fun i c => ?_, fun n x c => ?_⟩
    · rw [s.retireOne_lane oc none h] at c
      split at c
      · exact ((s.lane l).released_fewer e x).1 c |>.1
      · exact c
    · rw [s.retireOne_lane oc none h] at c
      split at c
      · exact ((s.lane l).released_fewer e x).2 c |>.1
      · exact c
    · rw [s.retireOne_due oc none h] at c
      exact (List.mem_filter.mp c).1
    · rw [s.retireOne_line oc none h] at c
      split at c
      · exact (List.mem_filter.mp c).1
      · exact c
  · rw [s.retireOne_of_not_scheduled oc none (by simpa using h)]
    exact .refl s

/-- The claim, the item and the subscription of an entry that retires are gone (R28). -/
theorem State.retireOne_released {s : State} {e : Fin 64} (oc : EntryOutcome) (h : (s.entry e).scheduled = true) :
    (s.retireOne e oc none).Released e := by
  have hkept : ((s.retireOne e oc none).entry e).prog = (s.entry e).prog ∧
      ((s.retireOne e oc none).entry e).start = (s.entry e).start := by
    exact (Entry.retiredAs_kept (s.retireOne_retiredAs oc none h)).2
  refine ⟨fun l c => ?_, fun i c => ?_, fun n c => ?_⟩
  · rw [s.retireOne_lane oc none h, if_pos (hkept.1 ▸ c)]
    exact ⟨fun d => (((s.lane l).released_fewer e e).1 d).2 rfl, fun d => (((s.lane l).released_fewer e e).2 d).2 rfl⟩
  · rw [s.retireOne_due oc none h] at c
    exact of_decide_eq_true (List.mem_filter.mp c).2
  · rw [s.retireOne_line oc none h, if_pos (hkept.2 ▸ c)]
    exact fun d => of_decide_eq_true (List.mem_filter.mp d).2 rfl

theorem State.unlink_fewer (s : State) (p y : Fin 64) : s.Fewer (s.unlink p y) :=
  ⟨fun l e c => by simpa using c, fun l e c => by simpa using c, fun i c => by simpa using c, fun n e c => by simpa using c⟩

/-- The removal of a link schedules and retires no entry (R116). -/
theorem State.unlink_scheduled (s : State) (p y x : Fin 64) : ((s.unlink p y).entry x).scheduled = (s.entry x).scheduled := by
  rw [s.unlink_entry]
  rfl

end Sys2Proof.Machine
end

section
/-! SUPPORT. An event that retires a list of entries and breaks the chains behind them (R28, R122, R132): the invariant that
each of its steps keeps, the walk of a chain to its tail, and what the whole event leaves. -/

namespace Sys2Proof.Machine

/-! ### The invariant -/

/-- `r` is the record `r₀` but for the two ends of a chain link. -/
def Entry.Relinked (r₀ r : Entry) : Prop := r = { r₀ with predecessor := r.predecessor, successor := r.successor }

/-- The outcome that an event gives an entry: its own to those it retires itself, CHAIN_BROKEN to those behind (R122). -/
def breakOutcome (hit : List (Fin 64)) (oc : EntryOutcome) (x : Fin 64) : EntryOutcome :=
  if x ∈ hit then oc else .chainBroken

/-- Entry `x` is one that the event retires itself, or stands behind one that is not scheduled any more. -/
def State.Reached (s₀ : State) (hit : List (Fin 64)) (s : State) (x : Fin 64) : Prop :=
  x ∈ hit ∨ ∃ p : Fin 64, (s₀.entry p).successor = some x ∧ (s.entry p).scheduled = false

/-- `s` is what a part of an event that retires the entries of `hit` and breaks the chains behind them has made of `s₀`. -/
structure State.Breaking (s₀ : State) (hit : List (Fin 64)) (oc : EntryOutcome) (s : State) : Prop where
  now : s.now = s₀.now
  fewer : s₀.Fewer s
  record : ∀ x : Fin 64, (s₀.entry x).Relinked (s.entry x) ∨
    (s₀.entry x).scheduled = true ∧
      (s₀.entry x).RetiredAs { s.entry x with successor := none } (breakOutcome hit oc x) s₀.now ∧ s.Released x
  links : ∀ x y : Fin 64, (s.entry x).successor = some y → (s₀.entry x).successor = some y
  due : s.due = s₀.due.filter fun i => (s.entry i.entry).scheduled || !(s₀.entry i.entry).scheduled
  lanes : ∀ l : Fin 16, s₀.ClaimsStand s l → s.lane l = s₀.lane l
  unreached : ∀ x : Fin 64, ¬ s₀.Reached hit s x →
    s.entry x = { s₀.entry x with successor := (s.entry x).successor } ∧
      ((s.entry x).successor = (s₀.entry x).successor ∨
        (s.entry x).successor = none ∧ ∃ y : Fin 64, (s₀.entry x).successor = some y ∧ (s.entry y).state = .done)

/-- Every link of `s₀` stands, or its successor is not scheduled any more, or the walk is about to break it. -/
def State.LinksOwed (s₀ : State) (s : State) (next : Option (Fin 64)) : Prop :=
  ∀ e y : Fin 64, (s₀.entry e).successor = some y →
    (s.entry e).successor = some y ∨ (s.entry y).scheduled = false ∨ next = some y

/-- An entry that the event has retired has lost its successor link, or is one whose chain is still to be broken. -/
def State.LinksCut (s₀ : State) (s : State) (left : List (Fin 64)) : Prop :=
  ∀ e : Fin 64, (s₀.entry e).scheduled = true → (s.entry e).scheduled = false →
    (s.entry e).successor = none ∨ e ∈ left

section Steps

variable {s₀ s t : State} {hit left : List (Fin 64)} {oc : EntryOutcome}

theorem Entry.Relinked.scheduled {r₀ r : Entry} (h : r₀.Relinked r) : r.scheduled = r₀.scheduled := by
  rw [h]
  rfl

/-- A retirement forgets the links (R27). -/
theorem Entry.Relinked.retiredAs {r₀ r r' : Entry} {t : Instant} (h : r₀.Relinked r) (hr : r.RetiredAs r' oc t) :
    r₀.RetiredAs r' oc t := by
  rw [h] at hr
  exact hr

/-- A DONE record is not scheduled. -/
theorem Entry.scheduled_of_done {r : Entry} (h : r.state = .done) : r.scheduled = false := by
  simp [Entry.scheduled, h]

theorem State.Breaking.refl (s : State) (hit : List (Fin 64)) (oc : EntryOutcome) : s.Breaking hit oc s where
  now := rfl
  fewer := .refl s
  record _ := .inl rfl
  links _ _ h := h
  due := by simp
  lanes _ _ := rfl
  unreached _ _ := ⟨rfl, .inl rfl⟩

/-- A retired record of the event is not scheduled. -/
theorem State.Breaking.scheduled_of_retired {x : Fin 64}
    (h : (s₀.entry x).RetiredAs { s.entry x with successor := none } (breakOutcome hit oc x) s₀.now) :
    (s.entry x).scheduled = false := Entry.scheduled_of_done (Entry.retiredAs_kept h).1

/-- An entry still scheduled has its record but for its links. -/
theorem State.Breaking.relinked (h : s₀.Breaking hit oc s) {x : Fin 64} (hx : (s.entry x).scheduled = true) :
    (s₀.entry x).Relinked (s.entry x) := by
  rcases h.record x with hr | ⟨-, hr, -⟩
  · exact hr
  · simp [State.Breaking.scheduled_of_retired hr] at hx

/-- What the event has reached it has reached for good, as no entry is scheduled by it. -/
theorem State.Reached.mono {x : Fin 64} (h : s₀.Reached hit s x)
    (hst : ∀ p : Fin 64, (s.entry p).scheduled = false → (t.entry p).scheduled = false) : s₀.Reached hit t x := by
  rcases h with h | ⟨p, hp, hs⟩
  · exact .inl h
  · exact .inr ⟨p, hp, hst p hs⟩

theorem State.retireOne_unscheduled (s : State) (e : Fin 64) (oc : EntryOutcome) (p : Fin 64)
    (h : (s.entry p).scheduled = false) : ((s.retireOne e oc none).entry p).scheduled = false := by
  rw [s.retireOne_scheduled oc none]
  split
  · rfl
  · exact h

/-- A retirement of an entry that the event has reached keeps the invariant (R27, R28). -/
theorem State.Breaking.retireOne (h : s₀.Breaking hit oc s) {e : Fin 64} (hreach : s₀.Reached hit s e)
    {oc' : EntryOutcome} (hoc : (s.entry e).scheduled = true → oc' = breakOutcome hit oc e) :
    s₀.Breaking hit oc (s.retireOne e oc' none) := by
  by_cases he : (s.entry e).scheduled = true
  swap
  · rw [s.retireOne_of_not_scheduled oc' none (by simpa using he)]
    exact h
  have hrel := h.relinked he
  have he₀ : (s₀.entry e).scheduled = true := hrel.scheduled ▸ he
  have hfew := s.retireOne_fewer e oc'
  have hsch := s.retireOne_scheduled (e := e) oc' none
  refine ⟨(s.retireOne_frame e oc' none).now_eq.trans h.now, h.fewer.trans hfew, fun x => ?_, fun x y c => ?_, ?_,
    fun l c => ?_, fun x c => ?_⟩
  · by_cases hx : x = e
    · subst hx
      refine .inr ⟨he₀, ?_, s.retireOne_released oc' he⟩
      rw [← h.now, ← hoc he]
      exact hrel.retiredAs (s.retireOne_retiredAs oc' none he)
    · have ho := s.retireOne_other oc' none hx
      rcases h.record x with hr | ⟨hx₀, hr, hrl⟩
      · left
        rw [ho, hr]
        rfl
      · refine .inr ⟨hx₀, ?_, hrl.fewer hfew (by rw [ho]) (by rw [ho])⟩
        rw [ho]
        exact hr
  · rcases s.retireOne_successor (e := e) oc' none x with hs | ⟨hs, -⟩
    · exact h.links x y (hs ▸ c)
    · rw [hs] at c
      cases c
  · rw [s.retireOne_due oc' none he, h.due, List.filter_filter]
    refine List.filter_congr fun i _ => ?_
    rw [hsch]
    by_cases hi : i.entry = e <;> simp [hi, he₀]
  · have hl : s₀.ClaimsStand s l := fun x hx => by
      have := c x hx
      rw [hsch] at this
      split at this
      · cases this
      · exact this
    have hne : ∀ x, (s₀.lane l).owner = some x ∨ (s₀.lane l).heir = some x → x ≠ e := fun x hx d => by
      have := c x hx
      rw [hsch, if_pos d] at this
      cases this
    rw [s.retireOne_lane oc' none he, h.lanes l hl]
    split
    · exact Lane.released_of_no_claim (fun d => hne e (.inl d) rfl) (fun d => hne e (.inr d) rfl) none
    · rfl
  · have hmono := s.retireOne_unscheduled e oc'
    have hx : x ≠ e := fun d => c (d ▸ hreach.mono hmono)
    obtain ⟨hrec, hlink⟩ := h.unreached x fun d => c (d.mono hmono)
    have ho := s.retireOne_other oc' none hx
    have hdone : ∀ y, (s.entry y).state = .done → ((s.retireOne e oc' none).entry y).state = .done := fun y hy => by
      by_cases hye : y = e
      · rw [Entry.scheduled_of_done (hye ▸ hy)] at he
        cases he
      · rw [s.retireOne_other oc' none hye]
        exact hy
    refine ⟨by rw [ho, hrec], ?_⟩
    rcases s.retireOne_successor (e := e) oc' none x with hs | ⟨hs, hxe⟩
    · rw [hs]
      exact hlink.imp_right fun ⟨hn, y, hy, hd⟩ => ⟨hn, y, hy, hdone y hd⟩
    · exact .inr ⟨hs, e, h.links x e hxe, (Entry.retiredAs_kept (s.retireOne_retiredAs oc' none he)).1⟩

/-- The removal of a link of an entry that the event has reached, and that is not scheduled any more, keeps the invariant
(R116, R122). -/
theorem State.Breaking.unlink (h : s₀.Breaking hit oc s) {p y : Fin 64} (hreach : s₀.Reached hit s p)
    (hp : (s.entry p).scheduled = false) (hy : (s₀.entry p).successor = some y) :
    s₀.Breaking hit oc (s.unlink p y) := by
  have hsch := s.unlink_scheduled p y
  have hent := s.unlink_entry p y
  refine ⟨?_, h.fewer.trans (s.unlink_fewer p y), fun x => ?_, fun x z c => ?_, ?_, fun l c => ?_, fun x c => ?_⟩
  · exact (s.unlink_frame p y).now_eq.trans h.now
  · rcases h.record x with hr | ⟨hx₀, hr, hrl⟩
    · left
      rw [hent, hr]
      rfl
    · refine .inr ⟨hx₀, ?_, hrl.fewer (s.unlink_fewer p y) (by rw [hent]) (by rw [hent])⟩
      have hpred : (s.entry x).predecessor = none := congrArg Entry.predecessor (show _ = _ from hr)
      have hsame : { (s.unlink p y).entry x with successor := none } = { s.entry x with successor := none } := by
        rw [hent]
        simp [hpred]
      rw [hsame]
      exact hr
  · rw [hent] at c
    dsimp only at c
    split at c
    · cases c
    · exact h.links x z c
  · rw [s.unlink_due, h.due]
    exact List.filter_congr fun i _ => by rw [hsch]
  · rw [s.unlink_lane]
    exact h.lanes l fun x hx => hsch x ▸ c x hx
  · have hmono : ∀ z, (s.entry z).scheduled = false → ((s.unlink p y).entry z).scheduled = false := fun z hz =>
      (hsch z).trans hz
    have hxp : x ≠ p := fun d => c (d ▸ hreach.mono hmono)
    have hxy : x ≠ y := fun d => c (.inr ⟨p, d ▸ hy, hmono p hp⟩)
    have hx : (s.unlink p y).entry x = s.entry x := by
      rw [hent]
      simp [hxp, hxy]
    have hdone : ∀ z, (s.entry z).state = .done → ((s.unlink p y).entry z).state = .done := fun z hz => by
      rw [hent]
      exact hz
    obtain ⟨hrec, hlink⟩ := h.unreached x fun d => c (d.mono hmono)
    rw [hx]
    exact ⟨hrec, hlink.imp_right fun ⟨hn, z, hz, hd⟩ => ⟨hn, z, hz, hdone z hd⟩⟩

end Steps

/-! ### The walk of a chain -/

/-- The entries with a successor. -/
def State.linked (s : State) : Finset (Fin 64) := Finset.univ.filter fun x => (s.entry x).successor ≠ none

/-- The event on its way, with the entries of `hit` retired, and what the walk and the breaks to come still owe. -/
structure State.Walking (s₀ : State) (hit : List (Fin 64)) (oc : EntryOutcome) (left : List (Fin 64))
    (next : Option (Fin 64)) (s : State) : Prop where
  breaking : s₀.Breaking hit oc s
  hitGone : ∀ e ∈ hit, (s.entry e).scheduled = false
  owed : s₀.LinksOwed s next
  cut : s₀.LinksCut s left

section Walk

variable {s₀ s : State} {hit left : List (Fin 64)} {oc : EntryOutcome}

/-- A retirement removes no entry from those owed, and the entry that retires is owed no more. -/
theorem State.LinksOwed.retireOne {next : Option (Fin 64)} (h : s₀.LinksOwed s next) (e : Fin 64) (oc : EntryOutcome)
    (hn : next = none ∨ next = some e) : s₀.LinksOwed (s.retireOne e oc none) none := by
  intro x y hxy
  have hgone : ((s.retireOne e oc none).entry e).scheduled = false := by
    rw [s.retireOne_scheduled oc none, if_pos rfl]
  rcases h x y hxy with hl | hl | hl
  · rcases s.retireOne_successor (e := e) oc none x with hs | ⟨-, hs⟩
    · exact .inl (hs.trans hl)
    · cases hl.symm.trans hs
      exact .inr (.inl hgone)
  · exact .inr (.inl (s.retireOne_unscheduled e oc y hl))
  · rcases hn with hn | hn
    · cases hn.symm.trans hl
    · cases hn.symm.trans hl
      exact .inr (.inl hgone)

/-- The link removed is the one the walk breaks next. -/
theorem State.LinksOwed.unlink (h : s₀.LinksOwed s none) (p y : Fin 64) : s₀.LinksOwed (s.unlink p y) (some y) := by
  intro x z hxz
  rw [s.unlink_scheduled, s.unlink_entry]
  rcases h x z hxz with hl | hl | hl
  · dsimp only
    split
    · next c => exact .inr (.inr (c.2.symm.trans (c.1 ▸ hl)))
    · exact .inl hl
  · exact .inr (.inl hl)
  · cases hl

/-- A retirement leaves the links of others cut, and its own entry's to be cut. -/
theorem State.LinksCut.retireOne (h : s₀.LinksCut s left) (e : Fin 64) (oc : EntryOutcome) :
    s₀.LinksCut (s.retireOne e oc none) (e :: left) := by
  intro x hx₀ hx
  by_cases hxe : x = e
  · exact .inr (hxe ▸ List.mem_cons_self)
  · rw [s.retireOne_scheduled oc none, if_neg hxe] at hx
    refine (h x hx₀ hx).imp (fun hn => ?_) (List.mem_cons_of_mem e)
    rcases s.retireOne_successor (e := e) oc none x with hs | ⟨hs, -⟩
    · exact hs.trans hn
    · exact hs

/-- An entry whose link is removed, or that has none, is not among those to be cut. -/
theorem State.LinksCut.drop {e : Fin 64} (h : s₀.LinksCut s (e :: left)) (he : (s.entry e).successor = none) :
    s₀.LinksCut s left := by
  intro x hx₀ hx
  rcases h x hx₀ hx with hn | hm
  · exact .inl hn
  · rcases List.mem_cons.mp hm with rfl | hm
    · exact .inl he
    · exact .inr hm

theorem State.LinksCut.unlink (h : s₀.LinksCut s left) (p y : Fin 64) : s₀.LinksCut (s.unlink p y) left := by
  intro x hx₀ hx
  rw [s.unlink_scheduled] at hx
  refine (h x hx₀ hx).imp_left fun hn => ?_
  rw [s.unlink_entry]
  simp [hn]

/-- A removed link is gone. -/
theorem State.unlink_successor_self {p y : Fin 64} (h : (s.entry p).successor = some y ∨ (s.entry p).successor = none) :
    ((s.unlink p y).entry p).successor = none := by
  rw [s.unlink_entry]
  rcases h with h | h <;> simp [h]

/-- The walk of a chain from an entry that the event has reached breaks it to its tail (R122). -/
theorem State.Walking.breakFrom (k : Nat) {y : Fin 64} (h : s₀.Walking hit oc left (some y) s)
    (hreach : s₀.Reached hit s y) (hk : s.linked.card < k) : s₀.Walking hit oc left none (s.breakFrom k (some y)) := by
  induction k generalizing s y with
  | zero => exact absurd hk (Nat.not_lt_zero _)
  | succ k ih =>
    have hgone := s.retireOne_unscheduled y .chainBroken
    have hy : ((s.retireOne y .chainBroken none).entry y).scheduled = false := by
      rw [s.retireOne_scheduled .chainBroken none, if_pos rfl]
    have hb : s₀.Breaking hit oc (s.retireOne y .chainBroken none) := h.breaking.retireOne hreach fun c => by
      rw [breakOutcome, if_neg fun hm => by simp [h.hitGone y hm] at c]
    have ho := h.owed.retireOne y .chainBroken (.inr rfl)
    have hc := h.cut.retireOne y .chainBroken
    have hh : ∀ e ∈ hit, ((s.retireOne y .chainBroken none).entry e).scheduled = false := fun e he =>
      hgone e (h.hitGone e he)
    have hsucc := s.retireOne_successor (e := y) .chainBroken none y
    unfold State.breakFrom
    split
    · next z hz =>
      have hz₀ := h.breaking.links y z hz
      have hcut : (((s.retireOne y .chainBroken none).unlink y z).entry y).successor = none :=
        State.unlink_successor_self (hsucc.imp (fun c => c.trans hz) And.left)
      refine ih ⟨hb.unlink (hreach.mono hgone) hy hz₀, fun e he => ?_, ho.unlink y z, (hc.unlink y z).drop hcut⟩
        (.inr ⟨y, hz₀, ?_⟩) (Nat.lt_of_lt_of_le (Finset.card_lt_card ?_) (Nat.le_of_lt_succ hk))
      · exact (State.unlink_scheduled _ _ _ _).trans (hh e he)
      · exact (State.unlink_scheduled _ _ _ _).trans hy
      · refine Finset.ssubset_iff_subset_ne.mpr ⟨fun x hx => ?_, fun c => ?_⟩
        · simp only [State.linked, Finset.mem_filter, Finset.mem_univ, true_and] at hx ⊢
          rw [State.unlink_entry] at hx
          rcases s.retireOne_successor (e := y) .chainBroken none x with hs | ⟨hs, -⟩
          · intro hn
            simp [hs, hn] at hx
          · simp [hs] at hx
        · have hm : y ∈ s.linked := by simp [State.linked, hz]
          rw [← c] at hm
          simp [State.linked, hcut] at hm
    · next hz => exact ⟨hb, hh, ho, hc.drop (hsucc.elim (fun c => c.trans hz) And.left)⟩

/-- The chain behind an entry that the event has retired is broken to its tail (R28, R122). -/
theorem State.Walking.breakBehind {e : Fin 64} (h : s₀.Walking hit oc (e :: left) none s) (he : e ∈ hit) :
    s₀.Walking hit oc left none (s.breakBehind e) := by
  have hgone := h.hitGone e he
  unfold State.breakBehind
  split
  · next y hy =>
    have hy₀ := h.breaking.links e y hy
    have hcut := State.unlink_successor_self (s := s) (p := e) (y := y) (.inl hy)
    refine State.Walking.breakFrom 64 ⟨h.breaking.unlink (.inl he) hgone hy₀, fun x hx => ?_, h.owed.unlink e y,
      (h.cut.unlink e y).drop hcut⟩ (.inr ⟨e, hy₀, ?_⟩) ?_
    · exact (s.unlink_scheduled e y x).trans (h.hitGone x hx)
    · exact (s.unlink_scheduled e y e).trans hgone
    · exact Finset.card_lt_univ_of_notMem (x := e) (by simp [State.linked, hcut])
  · next hy => exact ⟨h.breaking, h.hitGone, h.owed, h.cut.drop hy⟩

/-- The chains behind a list of entries that the event has retired are broken (R122, R132). -/
theorem State.Walking.breakAll (l : List (Fin 64)) (h : s₀.Walking hit oc l none s) (hl : ∀ e ∈ l, e ∈ hit) :
    s₀.Walking hit oc [] none (l.foldl (fun s e => s.breakBehind e) s) := by
  induction l generalizing s with
  | nil => exact h
  | cons e l ih =>
    exact ih (h.breakBehind (hl e List.mem_cons_self)) fun x hx => hl x (List.mem_cons_of_mem _ hx)

/-- The retirement of the entries of the event themselves, one after another (R132). -/
theorem State.Breaking.retireAll (l : List (Fin 64)) (h : s₀.Breaking hit oc s) (ho : s₀.LinksOwed s none)
    (hc : s₀.LinksCut s hit) (hl : ∀ e ∈ l, e ∈ hit) (hg : ∀ e ∈ hit, e ∈ l ∨ (s.entry e).scheduled = false) :
    s₀.Walking hit oc hit none (l.foldl (fun s e => s.retireOne e oc none) s) := by
  induction l generalizing s with
  | nil => exact ⟨h, fun e he => (hg e he).resolve_left List.not_mem_nil, ho, hc⟩
  | cons e l ih =>
    have he : e ∈ hit := hl e List.mem_cons_self
    refine ih (h.retireOne (.inl he) fun _ => (if_pos he).symm) (ho.retireOne e oc (.inl rfl)) (fun x hx₀ hx => ?_)
      (fun x hx => hl x (List.mem_cons_of_mem _ hx)) fun x hx => ?_
    · refine (hc.retireOne e oc x hx₀ hx).imp_right fun hm => ?_
      rcases List.mem_cons.mp hm with rfl | hm
      · exact he
      · exact hm
    · rcases hg x hx with hm | hs
      · rcases List.mem_cons.mp hm with rfl | hm
        · exact .inr (by rw [s.retireOne_scheduled oc none, if_pos rfl])
        · exact .inl hm
      · exact .inr (s.retireOne_unscheduled e oc x hs)

/-- An event that retires a list of entries, and then breaks the chains behind them (R28, R122, R132). -/
theorem State.walking_of_retireAll (s : State) (hit : List (Fin 64)) (oc : EntryOutcome) :
    s.Walking hit oc [] none
      (hit.foldl (fun s e => s.breakBehind e) (hit.foldl (fun s e => s.retireOne e oc none) s)) := by
  refine State.Walking.breakAll hit ?_ fun _ => id
  refine State.Breaking.retireAll hit (.refl s hit oc) (fun _ _ h => .inl h) (fun e he hs => ?_) (fun _ => id)
    fun _ he => .inl he
  rw [he] at hs
  cases hs

/-! ### What the whole event leaves -/

/-- The record of an entry that the event has retired is whole, its successor link gone. -/
theorem State.Walking.retired (h : s₀.Walking hit oc [] none s) {x : Fin 64} (hx₀ : (s₀.entry x).scheduled = true)
    (hx : (s.entry x).scheduled = false) :
    (s₀.entry x).RetiredAs (s.entry x) (breakOutcome hit oc x) s₀.now ∧ s.Released x := by
  have hn : (s.entry x).successor = none := (h.cut x hx₀ hx).resolve_right List.not_mem_nil
  rcases h.breaking.record x with hr | ⟨-, hr, hrl⟩
  · rw [hr.scheduled, hx₀] at hx
    cases hx
  · have hsame : { s.entry x with successor := none } = s.entry x := by rw [← hn]
    exact ⟨hsame ▸ hr, hrl⟩

/-- An entry that the event retires itself retires with the event's outcome (R132). -/
theorem State.Walking.hit_retired (h : s₀.Walking hit oc [] none s) {x : Fin 64} (hx : x ∈ hit)
    (hx₀ : (s₀.entry x).scheduled = true) :
    (s₀.entry x).RetiredAs (s.entry x) oc s₀.now ∧ s.Released x := by
  have hr := h.retired hx₀ (h.hitGone x hx)
  rwa [breakOutcome, if_pos hx] at hr

/-- The chains behind the entries of the event are broken to their tails (R122, R123). -/
theorem State.Walking.chainsBroken (h : s₀.Walking hit oc [] none s) :
    s₀.ChainsBroken s fun e => decide (e ∈ hit) := by
  refine ⟨fun e y he₀ he hy hy₀ hyh => ?_, fun e he hp => ?_, ?_⟩
  · have hs : (s.entry e).scheduled = false := Entry.scheduled_of_done he
    have hcut : (s.entry e).successor = none := (h.cut e he₀ hs).resolve_right List.not_mem_nil
    have hgone : (s.entry y).scheduled = false := by
      rcases h.owed e y hy with c | c | c
      · rw [hcut] at c
        cases c
      · exact c
      · cases c
    have hr := h.retired hy₀ hgone
    rwa [breakOutcome, if_neg (of_decide_eq_false hyh)] at hr
  · refine h.breaking.unreached e fun c => ?_
    rcases c with c | ⟨p, hpe, hps⟩
    · exact of_decide_eq_false he c
    · rw [hp p hpe] at hps
      cases hps
  · rw [h.breaking.due, List.filter_filter]
    refine List.filter_congr fun i _ => ?_
    cases (s.entry i.entry).scheduled <;> rfl

end Walk

end Sys2Proof.Machine
end

section
/-! SUPPORT. What the trips of one event leave (R131, R132, R133), for any list of trips. -/

namespace Sys2Proof.Machine

/-! ### The lanes of a list of trips -/

/-- The lanes that a list of trips trips. -/
def groupOf (trips : List Trip) : LaneGroup := trips.foldr (fun x g => x.group ||| g) 0

/-- A lane is tripped by a list of trips exactly when one of them has it in its group. -/
theorem groupOf_getLsbD (trips : List Trip) (k : Nat) :
    (groupOf trips).getLsbD k = trips.any fun x => x.group.getLsbD k := by
  induction trips with
  | nil => simp [groupOf]
  | cons x trips ih =>
    rw [List.any_cons, ← ih, groupOf, List.foldr_cons, BitVec.getLsbD_or]
    rfl

/-- `tripped-by` of lane `l` after a list of trips: each whose group holds the lane joins it (R131). -/
def TrippedBy.after (t : TrippedBy) (trips : List Trip) (l : Fin 16) : TrippedBy :=
  trips.foldl (fun t x => if x.group.getLsbD l.val = true then t.add x.source else t) t

theorem TrippedBy.add_ne_empty (t : TrippedBy) (src : TripId) : t.add src ≠ TrippedBy.empty := by
  cases src <;> simp [TrippedBy.add, TrippedBy.empty]

/-- One trip of a lane: the source joins its set, and the claims go where the set was empty (R131). -/
theorem Lane.tripped_eq (r : Lane) (src : TripId) :
    r.tripped src =
      { if r.trippedBy = TrippedBy.empty then r.unclaimed else r with trippedBy := r.trippedBy.add src } := by
  unfold Lane.tripped
  by_cases h : r.trippedBy = TrippedBy.empty
  · have ha : ¬ r.trippedBy.any = true := fun c => (TrippedBy.any_iff _).mp c h
    rw [if_neg ha, if_pos h]
  · rw [if_pos ((TrippedBy.any_iff _).mpr h), if_neg h]

theorem TrippedBy.after_cons (t : TrippedBy) (x : Trip) (trips : List Trip) (l : Fin 16) :
    t.after (x :: trips) l = (if x.group.getLsbD l.val = true then t.add x.source else t).after trips l := rfl

/-- No source leaves a set by a trip, and one joins it where a group holds the lane (R131). -/
theorem TrippedBy.after_ne_empty {t : TrippedBy} {trips : List Trip} {l : Fin 16}
    (h : t ≠ TrippedBy.empty ∨ (groupOf trips).getLsbD l.val = true) : t.after trips l ≠ TrippedBy.empty := by
  induction trips generalizing t with
  | nil => exact h.resolve_right (by simp [groupOf])
  | cons x trips ih =>
    rw [TrippedBy.after_cons]
    split
    · exact ih (.inl (t.add_ne_empty _))
    · next hx =>
      refine ih (h.imp_right fun c => ?_)
      rwa [groupOf_getLsbD, List.any_cons, Bool.eq_false_of_not_eq_true hx, Bool.false_or, ← groupOf_getLsbD] at c

/-- A lane after the lane steps of a list of trips: the sources join its set, and where the set was empty and a group holds the
lane its claims go (R131). -/
theorem Lane.foldl_tripped (trips : List Trip) (l : Fin 16) (r : Lane) :
    trips.foldl (fun r x => if x.group.getLsbD l.val = true then r.tripped x.source else r) r =
      { if r.trippedBy = TrippedBy.empty ∧ (groupOf trips).getLsbD l.val = true then r.unclaimed else r with
        trippedBy := r.trippedBy.after trips l } := by
  induction trips generalizing r with
  | nil => simp [groupOf, TrippedBy.after]
  | cons x trips ih =>
    rw [List.foldl_cons, ih, TrippedBy.after_cons]
    have hbit : (groupOf (x :: trips)).getLsbD l.val = (x.group.getLsbD l.val || (groupOf trips).getLsbD l.val) := by
      rw [groupOf_getLsbD, groupOf_getLsbD, List.any_cons]
    rw [hbit]
    cases x.group.getLsbD l.val
    · rfl
    · by_cases he : r.trippedBy = TrippedBy.empty <;> simp [he, Lane.tripped_eq, TrippedBy.add_ne_empty, Lane.unclaimed]

/-- The lanes after the lane steps of an event's trips (R131). -/
theorem State.laneSteps_lane_eq (s : State) (trips : List Trip) (l : Fin 16) :
    (trips.foldl State.laneStep s).lane l =
      { if (s.lane l).trippedBy = TrippedBy.empty ∧ (groupOf trips).getLsbD l.val = true then (s.lane l).unclaimed
        else s.lane l with
        trippedBy := (s.lane l).trippedBy.after trips l } := by
  rw [State.laneSteps_lane, Lane.foldl_tripped]

/-- A lane that no group holds is as it was after the lane steps. -/
theorem State.laneSteps_lane_of_not_mem (s : State) {trips : List Trip} {l : Fin 16}
    (h : (groupOf trips).getLsbD l.val = false) : (trips.foldl State.laneStep s).lane l = s.lane l := by
  have hx : ∀ x ∈ trips, ¬ x.group.getLsbD l.val = true := fun x hx c => by
    rw [groupOf_getLsbD, List.any_eq_false] at h
    exact h x hx c
  rw [State.laneSteps_lane]
  generalize s.lane l = r
  clear h
  induction trips with
  | nil => rfl
  | cons x trips ih =>
    rw [List.foldl_cons, if_neg (hx x List.mem_cons_self)]
    exact ih fun y hy => hx y (List.mem_cons_of_mem _ hy)

/-! ### The entries recorded -/

/-- The entries that the trips of an event record are those that hold a lane newly tripped (R131, R133). -/
theorem State.recordedBy_iff (s : State) (trips : List Trip) (e : Fin 64) :
    s.recordedBy trips e = true ↔ s.HoldsUntripped (groupOf trips) e := by
  simp only [State.recordedBy, State.recorded, List.any_eq_true, mem_lanesOf, State.HoldsUntripped, groupOf_getLsbD,
    Bool.and_eq_true, Bool.not_eq_true', Bool.or_eq_true, decide_eq_true_eq]
  constructor
  · rintro ⟨x, hx, l, hl, hn, hc⟩
    exact ⟨l, ⟨x, hx, hl⟩, not_not.mp fun c => by simp [(TrippedBy.any_iff _).mpr c] at hn, hc⟩
  · rintro ⟨l, ⟨x, hx, hl⟩, hn, hc⟩
    exact ⟨x, hx, l, hl, by rw [hn]; rfl, hc⟩

/-! ### The whole event -/

/-- The trips of an event retire the entries recorded and break the chains behind them (R132). -/
theorem State.takeTrips_walking (s : State) (trips : List Trip) :
    (trips.foldl State.laneStep s).Walking ((List.finRange 64).filter (s.recordedBy trips)) .tripped [] none
      (s.takeTrips trips) := State.walking_of_retireAll _ _ _

/-- The trips of one event: the lanes of their groups are tripped, the holders of those newly tripped are TRIPPED, and the
chains behind them broken (R131, R132, R133). -/
theorem State.takeTrips_effect (s : State) (trips : List Trip) :
    s.TripEffect (s.takeTrips trips) (fun l => (s.lane l).trippedBy.after trips l) (groupOf trips) := by
  have hw := s.takeTrips_walking trips
  have hset := (s.takeTrips_frame trips).lanes
  have hlane := s.laneSteps_lane_eq trips
  have hkeep := fun l => s.laneSteps_lane_of_not_mem (trips := trips) (l := l)
  obtain ⟨ls, hls⟩ := State.laneSteps_eq trips s
  have hent : ∀ e, (trips.foldl State.laneStep s).entry e = s.entry e := fun e => by rw [hls]; rfl
  have hnow : (trips.foldl State.laneStep s).now = s.now := by rw [hls]
  have hdue : (trips.foldl State.laneStep s).due = s.due := by rw [hls]
  have hmem : ∀ e, e ∈ (List.finRange 64).filter (s.recordedBy trips) ↔ s.HoldsUntripped (groupOf trips) e := fun e => by
    simp [s.recordedBy_iff trips e]
  generalize trips.foldl State.laneStep s = u at *
  generalize s.takeTrips trips = t at *
  refine ⟨fun l => ?_, fun l hl => ?_, fun l hl he => ?_, fun l hl => ?_, fun l => ?_, fun e he hh => ?_, ?_,
    fun l hl hc => ?_⟩
  · rw [(hset l).2.2.2, hlane]
  · obtain ⟨-, hsafe, -, hby⟩ := hset l
    have ha : (t.lane l).trippedBy.any = true := by
      rw [hby, hlane]
      exact (TrippedBy.any_iff _).mpr (TrippedBy.after_ne_empty (.inr hl))
    rw [Lane.presentLevel, if_pos ha, hsafe, hlane]
    dsimp only
    split <;> rfl
  · have hu : u.lane l = { (s.lane l).unclaimed with trippedBy := (s.lane l).trippedBy.after trips l } := by
      rw [hlane, if_pos ⟨he, hl⟩]
    have ht : t.lane l = u.lane l := hw.breaking.lanes l fun e c => by
      rw [hu] at c
      rcases c with c | c <;> cases c
    rw [ht, hu]
    exact ⟨rfl, rfl, rfl, rfl⟩
  · rw [(hset l).2.2.1, hkeep l hl]
  · obtain ⟨hp, hs, -, -⟩ := hset l
    rw [hp, hs, hlane]
    dsimp only
    split <;> exact ⟨rfl, rfl⟩
  · have hr := hw.hit_retired ((hmem e).mpr hh) (by rw [hent]; exact he)
    rwa [hent, hnow] at hr
  · have hb := hw.chainsBroken
    have hf : (fun e => decide (e ∈ (List.finRange 64).filter (s.recordedBy trips))) =
        fun e => decide (s.HoldsUntripped (groupOf trips) e) := funext fun e => decide_eq_decide.mpr (hmem e)
    rw [hf] at hb
    unfold State.ChainsBroken at hb ⊢
    simpa only [hent, hnow, hdue] using hb
  · rw [← hkeep l hl]
    refine hw.breaking.lanes l fun e c => hc e ?_
    rwa [hkeep l hl] at c

/-! ### The units that a trip works on -/

/-- The records that runs and trips work on are the same in two parts. -/
structure State.SameRuns (s t : State) : Prop where
  now : t.now = s.now
  entries : t.entries = s.entries
  due : t.due = s.due
  lines : t.lines = s.lines
  lanes : t.lanes = s.lanes

theorem State.SameRuns.refl (s : State) : s.SameRuns s := ⟨rfl, rfl, rfl, rfl, rfl⟩

theorem State.SameRuns.trans {s t u : State} (h : s.SameRuns t) (k : t.SameRuns u) : s.SameRuns u :=
  ⟨k.now.trans h.now, k.entries.trans h.entries, k.due.trans h.due, k.lines.trans h.lines, k.lanes.trans h.lanes⟩

/-- The effect of a trip is one on the records that runs and trips work on. -/
theorem State.TripEffect.congr {s t s' t' : State} {held : Fin 16 → TrippedBy} {g : LaneGroup}
    (h : s.TripEffect t held g) (hs : s.SameRuns s') (ht : t.SameRuns t') : s'.TripEffect t' held g := by
  obtain ⟨s1, s2, s3, s4, s5⟩ := hs
  obtain ⟨t1, t2, t3, t4, t5⟩ := ht
  have he : ∀ e, s'.entry e = s.entry e := fun e => by rw [State.entry, State.entry, s2]
  have hl : ∀ l, s'.lane l = s.lane l := fun l => by rw [State.lane, State.lane, s5]
  have he' : ∀ e, t'.entry e = t.entry e := fun e => by rw [State.entry, State.entry, t2]
  have hl' : ∀ l, t'.lane l = t.lane l := fun l => by rw [State.lane, State.lane, t5]
  have hn' : ∀ n, t'.line n = t.line n := fun n => by rw [State.line, State.line, t4]
  unfold State.TripEffect State.ChainsBroken State.Released State.HoldsUntripped State.ClaimsStand at h ⊢
  simpa only [he, hl, he', hl', hn', s1, s3, t3] using h

end Sys2Proof.Machine
end

section
/-! SUPPORT. The samples of a CLK edge and the trips they bring (R127, R128, R129, R133), and the part that stands still
(R9). -/

namespace Sys2Proof.Machine

/-! ### A source at an edge (R127, R128, R129) -/

/-- A sample changes neither the configuration nor the group of a source (R128). -/
theorem TripSource.atEdge_config (r : TripSource) (level : Level) :
    (r.atEdge level).enabled = r.enabled ∧ (r.atEdge level).activeLevel = r.activeLevel ∧
      (r.atEdge level).depth = r.depth ∧ (r.atEdge level).group = r.group := by
  unfold TripSource.atEdge TripSource.sampled
  repeat' split
  · exact ⟨rfl, rfl, rfl, rfl⟩
  · cases r.reads level <;> exact ⟨rfl, rfl, rfl, rfl⟩
  · exact ⟨rfl, rfl, rfl, rfl⟩
  · exact ⟨rfl, rfl, rfl, rfl⟩

/-- A source completes on this edge its K-th ACTIVE sample after INACTIVE ones (R128, R129). -/
abbrev TripSource.CompletesActive (r : TripSource) (level : Level) : Prop :=
  r.enabled = true ∧ r.inputState = .inactive ∧ r.depth ≤ r.runLength + 1 ∧ level = r.activeLevel

/-- A QUIET source is HELD after an edge exactly where it completes a K-th ACTIVE sample there (R128, R129). -/
theorem TripSource.atEdge_of_quiet {r : TripSource} (h : r.state = .quiet) (level : Level) :
    (r.CompletesActive level ∧ r.atEdge level = { r with inputState := .active, runLength := 0, state := .held }) ∨
      (¬ r.CompletesActive level ∧ (r.atEdge level).state = .quiet) := by
  unfold TripSource.atEdge TripSource.sampled
  by_cases he : r.enabled = true
  · rw [if_pos he]
    by_cases hread : r.reads level = r.inputState
    · rw [if_pos hread]
      refine .inr ⟨fun ⟨_, hi, _, hl⟩ => ?_, h⟩
      rw [TripSource.reads, if_pos hl, hi] at hread
      cases hread
    · rw [if_neg hread]
      by_cases hd : r.depth ≤ r.runLength + 1
      · rw [if_pos hd]
        by_cases hl : level = r.activeLevel
        · rw [TripSource.reads, if_pos hl] at hread ⊢
          have hi : r.inputState = .inactive := by
            cases hr : r.inputState
            · exact absurd hr.symm hread
            · rfl
          exact .inl ⟨⟨he, hi, hd, hl⟩, rfl⟩
        · rw [TripSource.reads, if_neg hl]
          exact .inr ⟨fun c => hl c.2.2.2, by simp [TripSource.changedTo, h]⟩
      · rw [if_neg hd]
        exact .inr ⟨fun c => hd c.2.2.1, h⟩
  · rw [if_neg he]
    exact .inr ⟨fun c => he c.1, h⟩

/-! ### The trips of an edge -/

/-- The trip of the sample that source A or B takes on an edge: of its group, where it completes a K-th ACTIVE sample while
QUIET (R129). -/
theorem State.tripOf_atEdge (s : State) (i : TripInput) :
    s.tripOf i ((s.trip i).atEdge (s.tripPin i)) =
      if (s.trip i).state = .quiet ∧ (s.trip i).CompletesActive (s.tripPin i) then [⟨tripIdOf i, (s.trip i).group⟩]
      else [] := by
  rw [State.tripOf, ((s.trip i).atEdge_config (s.tripPin i)).2.2.2]
  refine if_congr (and_congr_right fun hq => ?_) rfl rfl
  rcases TripSource.atEdge_of_quiet hq (s.tripPin i) with ⟨hc, he⟩ | ⟨hc, he⟩
  · exact iff_of_true (by rw [he]) hc
  · exact iff_of_false (by simp [he]) hc

/-- The group that a source trips on an edge, by the same condition. -/
theorem State.edgeGroup_eq (s : State) (i : TripInput) :
    s.edgeGroup i =
      if (s.trip i).state = .quiet ∧ (s.trip i).CompletesActive (s.tripPin i) then (s.trip i).group else 0 := by
  refine if_congr ?_ rfl rfl
  constructor
  · rintro ⟨he, hq, hi, hd, hl⟩
    exact ⟨hq, he, hi, hd, hl⟩
  · rintro ⟨hq, he, hi, hd, hl⟩
    exact ⟨he, hq, hi, hd, hl⟩

theorem groupOf_append (xs ys : List Trip) : groupOf (xs ++ ys) = groupOf xs ||| groupOf ys := by
  refine BitVec.eq_of_getLsbD_eq fun k _ => ?_
  rw [BitVec.getLsbD_or, groupOf_getLsbD, groupOf_getLsbD, groupOf_getLsbD, List.any_append]

theorem groupOf_singleton (x : Trip) : groupOf [x] = x.group := BitVec.or_zero

theorem TrippedBy.after_append (t : TrippedBy) (xs ys : List Trip) (l : Fin 16) :
    t.after (xs ++ ys) l = (t.after xs l).after ys l := List.foldl_append

/-- The sample of a source trips its edge group. -/
theorem State.groupOf_tripOf_atEdge (s : State) (i : TripInput) :
    groupOf (s.tripOf i ((s.trip i).atEdge (s.tripPin i))) = s.edgeGroup i := by
  rw [s.tripOf_atEdge, s.edgeGroup_eq]
  split
  · exact groupOf_singleton _
  · rfl

/-- A source joins a lane's set exactly where it is not in it and the list has a trip of it that holds the lane. -/
theorem TrippedBy.after_singleton (t : TrippedBy) (x : Trip) (l : Fin 16) :
    t.after [x] l = if x.group.getLsbD l.val = true then t.add x.source else t := rfl

/-- A lane's set after the sample of A (R131). -/
theorem State.after_tripOf_a (s : State) (t : TrippedBy) (l : Fin 16) :
    t.after (s.tripOf .a ((s.trip .a).atEdge (s.tripPin .a))) l =
      { t with a := t.a || (s.edgeGroup .a).getLsbD l.val } := by
  rw [s.tripOf_atEdge, s.edgeGroup_eq]
  split
  · rw [TrippedBy.after_singleton]
    cases (s.trip .a).group.getLsbD l.val <;> simp [TrippedBy.add, tripIdOf]
  · simp [TrippedBy.after]

/-- A lane's set after the sample of B (R131). -/
theorem State.after_tripOf_b (s : State) (t : TrippedBy) (l : Fin 16) :
    t.after (s.tripOf .b ((s.trip .b).atEdge (s.tripPin .b))) l =
      { t with b := t.b || (s.edgeGroup .b).getLsbD l.val } := by
  rw [s.tripOf_atEdge, s.edgeGroup_eq]
  split
  · rw [TrippedBy.after_singleton]
    cases (s.trip .b).group.getLsbD l.val <;> simp [TrippedBy.add, tripIdOf]
  · simp [TrippedBy.after]

/-- The trips of A and B on an edge, and of SOFT for the group `g`, leave together what R133 says. `soft` is the list of the
trip of SOFT, empty where `g` is. -/
theorem State.takeTrips_trippedOnEdge (s : State) {u : State} (hu : s.SameRuns u) (soft : List Trip) (g : LaneGroup)
    (hg : groupOf soft = g)
    (hsoft : ∀ (t : TrippedBy) (l : Fin 16), t.after soft l = { t with soft := t.soft || g.getLsbD l.val }) :
    s.TrippedOnEdge (u.takeTrips
      (s.tripOf .a ((s.trip .a).atEdge (s.tripPin .a)) ++ s.tripOf .b ((s.trip .b).atEdge (s.tripPin .b)) ++ soft)) g := by
  have h := u.takeTrips_effect
    (s.tripOf .a ((s.trip .a).atEdge (s.tripPin .a)) ++ s.tripOf .b ((s.trip .b).atEdge (s.tripPin .b)) ++ soft)
  have hlane : ∀ l, u.lane l = s.lane l := fun l => by rw [State.lane, State.lane, hu.lanes]
  simp only [groupOf_append, s.groupOf_tripOf_atEdge, hg, TrippedBy.after_append, s.after_tripOf_a, s.after_tripOf_b, hsoft,
    hlane] at h
  exact State.TripEffect.congr h ⟨hu.now.symm, hu.entries.symm, hu.due.symm, hu.lines.symm, hu.lanes.symm⟩ (.refl _)

/-! ### The samples of an edge -/

/-- What the samples of an edge leave alone, whether or not a TRIP is taken with them (R128, R133). -/
theorem State.clkTrips_frame (s : State) (restarted : List TripInput) :
    s.SameTimebase (s.clkTrips restarted) ∧ (s.clkTrips restarted).pins = s.pins ∧
      (∀ i, (s.clkTrips restarted).trip i = s.sourceAtEdge restarted i) ∧
      (s.clkTrips restarted).clkEdges = s.clkEdges := by
  have key : ∀ (u : State) (trips : List Trip), u.SameTimebase (u.takeTrips trips) ∧ (u.takeTrips trips).pins = u.pins ∧
      (∀ i, (u.takeTrips trips).trip i = u.trip i) ∧ (u.takeTrips trips).clkEdges = u.clkEdges := fun u trips => by
    obtain ⟨ht, ⟨ha, hb, -⟩, hp, -, -, hc⟩ := u.takeTrips_outside trips
    exact ⟨ht, hp, fun i => by cases i; exacts [ha, hb], hc⟩
  have hset : ∀ i, ((s.setTrip .a (s.sourceAtEdge restarted .a)).setTrip .b (s.sourceAtEdge restarted .b)).trip i =
      s.sourceAtEdge restarted i := fun i => by cases i <;> rfl
  unfold State.clkTrips
  dsimp only
  split
  · obtain ⟨ht, hp, hi, hc⟩ := key ((s.setTrip .a (s.sourceAtEdge restarted .a)).setTrip .b (s.sourceAtEdge restarted .b))
      (s.tripOf .a (s.sourceAtEdge restarted .a) ++ s.tripOf .b (s.sourceAtEdge restarted .b))
    exact ⟨ht, hp, fun i => (hi i).trans (hset i), hc⟩
  · next tag g _ =>
    obtain ⟨ht, hp, hi, hc⟩ := key
      (((s.setTrip .a (s.sourceAtEdge restarted .a)).setTrip .b (s.sourceAtEdge restarted .b)).setSoft (s.soft.tripped g))
      (s.tripOf .a (s.sourceAtEdge restarted .a) ++ s.tripOf .b (s.sourceAtEdge restarted .b) ++
        [⟨.soft, s.soft.newly g⟩])
    exact ⟨ht, hp, fun i => (hi i).trans (hset i), hc⟩

/-- A filter that has not restarted on the edge takes its sample (R128). -/
theorem State.sourceAtEdge_nil (s : State) (i : TripInput) : s.sourceAtEdge [] i = (s.trip i).atEdge (s.tripPin i) := rfl

/-- The samples of an edge on which no TRIP is taken: SOFT and the link are as they were, and the trips are those of A and B
(R133). -/
theorem State.clkTrips_of_none {s : State} (h : s.tripEndsHere = none) :
    (s.clkTrips []).soft = s.soft ∧ (∀ restarted, (s.clkTrips restarted).link = s.link) ∧
      s.TrippedOnEdge (s.clkTrips []) 0 := by
  refine ⟨?_, fun restarted => (State.clkTrips_outside h restarted).2.1, ?_⟩
  · simp only [State.clkTrips, h]
    exact ((State.takeTrips_outside _ _).2.1).2.2
  · simp only [State.clkTrips, h, s.sourceAtEdge_nil]
    have ht := s.takeTrips_trippedOnEdge
      (u := (s.setTrip .a ((s.trip .a).atEdge (s.tripPin .a))).setTrip .b ((s.trip .b).atEdge (s.tripPin .b)))
      ⟨rfl, rfl, rfl, rfl, rfl⟩ [] 0 rfl (fun t l => by simp [TrippedBy.after])
    rwa [List.append_nil] at ht

/-- The samples of an edge on which a TRIP is taken: SOFT is LATCHED with the lanes given, the TRIP is answered, and the trips
are those of A, B and SOFT (R133, R135). -/
theorem State.clkTrips_of_some {s : State} {tag : Byte} {g : LaneGroup} (h : s.tripEndsHere = some (tag, g)) :
    (s.clkTrips []).soft = s.soft.tripped g ∧
      (s.clkTrips []).link.buffer = .ready (frameOf 0x00 tag []) ∧ s.TrippedOnEdge (s.clkTrips []) (s.soft.newly g) := by
  simp only [State.clkTrips, h, s.sourceAtEdge_nil]
  refine ⟨((State.takeTrips_outside _ _).2.1).2.2, rfl, ?_⟩
  have ht := s.takeTrips_trippedOnEdge
    (u := ((s.setTrip .a ((s.trip .a).atEdge (s.tripPin .a))).setTrip .b ((s.trip .b).atEdge (s.tripPin .b))).setSoft
      (s.soft.tripped g)) ⟨rfl, rfl, rfl, rfl, rfl⟩ [⟨.soft, s.soft.newly g⟩] (s.soft.newly g) (groupOf_singleton _)
    fun t l => by
      rw [TrippedBy.after_singleton]
      dsimp only
      cases (s.soft.newly g).getLsbD l.val <;> simp [TrippedBy.add]
  exact ht.congr (.refl s) ⟨rfl, rfl, rfl, rfl, rfl⟩

/-! ### A part that stands still (R9, R11) -/

theorem State.Stopped.setLine {s : State} (h : s.Stopped) (n : Fin 8) {r : TriggerLine} (hr : r.subs = []) :
    (s.setLine n r).Stopped := by
  refine ⟨h.1, h.2.1, fun x => ?_⟩
  rw [s.line_setLine]
  split
  · exact hr
  · exact h.2.2 x

/-- A sample with no subscription starts nothing (R82, R88). -/
theorem State.Stopped.takeSample {s : State} (h : s.Stopped) (n : Fin 8) (level : Level) : (s.takeSample n level).Stopped := by
  have hn : (s.line n).subs = [] := h.2.2 n
  have h' : (s.setLine n { s.line n with sampleDue := false }).Stopped := h.setLine n hn
  unfold State.takeSample
  split
  · unfold State.filterSample
    dsimp only
    repeat' split
    · exact h'.setLine n (h'.2.2 n)
    · exact h'.setLine n (h'.2.2 n)
    · unfold State.acceptChange
      simp only [State.setLine_setLine, State.line_setLine_self]
      split
      · rw [State.walk, State.line_setLine_self, hn]
        exact h.setLine n rfl
      · exact h.setLine n hn
    · exact h'.setLine n (h'.2.2 n)
  · exact h

/-- A dispatch with an empty due list hands nothing over (R71, R72). -/
theorem State.Stopped.finishDispatch {s : State} (h : s.Stopped) : s.finishDispatch.Stopped := by
  have hone : s.actionOne = s := by
    have hn : s.nextItem = none := by
      unfold State.nextItem
      split
      · rfl
      · split
        · simp [DispatchWork.examined, h.2.1]
        · rfl
    unfold State.actionOne
    rw [hn]
    split
    · next hd => cases hd
    · rfl
  unfold State.finishDispatch
  split
  · rw [h.2.1]
    simp only [List.length_nil, State.overrunStep, Config.actionCapacity, State.actionStep, hone]
    exact h
  · exact h

/-- A part of a tick event starts nothing on a part that stands still (R2). -/
theorem State.Stopped.takeUnit {s : State} (h : s.Stopped) (u : TickUnit) : (s.takeUnit u).Stopped := by
  cases u with
  | dispatch => exact h.finishDispatch
  | sample n => exact h.takeSample n _
  | countdown k =>
    unfold State.takeUnit State.countdown
    dsimp only
    split
    · exact h
    · exact h

theorem State.Stopped.takeUnits {s : State} (h : s.Stopped) (units : List TickUnit) : (s.takeUnits units).Stopped :=
  List.foldlRecOn units State.takeUnit h fun _ ht u _ => ht.takeUnit u

theorem State.Stopped.settle {s : State} (h : s.Stopped) : s.settle.Stopped := by
  unfold State.settle
  exact h.takeUnits tickUnits

theorem State.Stopped.countLines {s : State} (h : s.Stopped) : s.countLines.Stopped :=
  List.foldlRecOn _ _ h fun t ht n _ => ht.setLine n (by
    have hn : (t.line n).subs = [] := ht.2.2 n
    unfold TriggerLine.count
    split <;> exact hn)

theorem State.Stopped.oweCountdowns {s : State} (h : s.Stopped) : s.oweCountdowns.Stopped := by
  obtain ⟨ks, hks⟩ := s.oweCountdowns_eq
  rw [hks]
  exact h

/-- The end of a tick starts nothing (R1). -/
theorem State.Stopped.beginTick {s : State} (h : s.Stopped) (levels : BitVec 8) : (s.beginTick levels).Stopped := by
  unfold State.beginTick
  refine State.Stopped.oweCountdowns (State.Stopped.countLines ?_)
  exact h

/-- The count of a CLK period starts nothing on a part that stands still (R1, R9). -/
theorem State.Stopped.clkTimebase {s : State} (h : s.Stopped) (order : List TickUnit) : (s.clkTimebase order).Stopped := by
  unfold State.clkTimebase
  split
  · unfold State.tick
    exact (h.settle.beginTick _).takeUnits order
  · exact h

/-- Trips retire nothing on a part that stands still, and start nothing (R29, R132). -/
theorem State.Stopped.takeTrips {s : State} (h : s.Stopped) (trips : List Trip) : (s.takeTrips trips).Stopped := by
  have hw := (s.takeTrips_walking trips).breaking
  obtain ⟨ls, hls⟩ := State.laneSteps_eq trips s
  have hu : (trips.foldl State.laneStep s).Stopped := by
    rw [hls]
    exact h
  refine ⟨fun e => ?_, List.eq_nil_iff_forall_not_mem.mpr fun i hi => ?_,
    fun n => List.eq_nil_iff_forall_not_mem.mpr fun e he => ?_⟩
  · rcases hw.record e with hr | ⟨hs, -⟩
    · exact hr.scheduled.trans (hu.1 e)
    · rw [hu.1 e] at hs
      cases hs
  · have := hw.fewer.due i hi
    rw [hu.2.1] at this
    cases this
  · have := hw.fewer.subs n e he
    rw [hu.2.2 n] at this
    cases this

theorem State.Stopped.clkTrips {s : State} (h : s.Stopped) (restarted : List TripInput) : (s.clkTrips restarted).Stopped := by
  have hu : ((s.setTrip .a (s.sourceAtEdge restarted .a)).setTrip .b (s.sourceAtEdge restarted .b)).Stopped := h
  unfold State.clkTrips
  dsimp only
  split
  · exact hu.takeTrips _
  · next tag g _ =>
    have hv : (((s.setTrip .a (s.sourceAtEdge restarted .a)).setTrip .b (s.sourceAtEdge restarted .b)).setSoft
      (s.soft.tripped g)).Stopped := h
    exact hv.takeTrips _

/-- A part on which nothing is scheduled has a timebase that is not busy (R9). -/
theorem State.Stopped.not_busy {s : State} (h : s.Stopped) : s.timebaseBusy = false :=
  List.any_eq_false.mpr fun e _ => by simp [h.1 e]

end Sys2Proof.Machine
end

section
/-! SUPPORT. One CLK edge in every order of its parts (R1, R10, R12, R128, R133, R137, R146; log entries 4 and 25). For each
kind of edge a predicate says what the part looks like when some of the three parts have been taken; each part keeps it. -/

namespace Sys2Proof.Machine

/-! ### Every order of an edge -/

/-- What holds before an edge, and is kept by each of its three parts where it has not been taken, holds after the edge in
every order. The three Booleans say whether the timebase, the samples and the execution have been taken. -/
theorem EdgeWork.order_ind {P : Bool → Bool → Bool → EdgeWork → Prop} {tickOrder : List TickUnit}
    {order : List Config.EdgeUnit} (ho : order.Perm edgeUnits) {w : EdgeWork} (h0 : P false false false w)
    (hT : ∀ b c w, P false b c w → P true b c (w.take tickOrder .timebase))
    (hS : ∀ a c w, P a false c w → P a true c (w.take tickOrder .tripSamples))
    (hE : ∀ a b w, P a b false w → P a b true (w.take tickOrder .execution)) :
    P true true true (order.foldl (EdgeWork.take tickOrder) w) := by
  have hm : order ∈ [[.timebase, .tripSamples, .execution], [.tripSamples, .timebase, .execution],
      [.tripSamples, .execution, .timebase], [.timebase, .execution, .tripSamples],
      [.execution, .timebase, .tripSamples], [.execution, .tripSamples, .timebase]] :=
    List.mem_permutations'.mpr ho
  simp only [List.mem_cons, List.not_mem_nil, or_false] at hm
  rcases hm with rfl | rfl | rfl | rfl | rfl | rfl
  · exact hE _ _ _ (hS _ _ _ (hT _ _ _ h0))
  · exact hE _ _ _ (hT _ _ _ (hS _ _ _ h0))
  · exact hT _ _ _ (hE _ _ _ (hS _ _ _ h0))
  · exact hS _ _ _ (hE _ _ _ (hT _ _ _ h0))
  · exact hS _ _ _ (hT _ _ _ (hE _ _ _ h0))
  · exact hT _ _ _ (hS _ _ _ (hE _ _ _ h0))

/-- A part that no earlier one overtook is taken. -/
theorem EdgeWork.take_of_not_overtaken {w : EdgeWork} {u : Config.EdgeUnit} (h : w.overtaken.contains u = false)
    (tickOrder : List TickUnit) :
    w.take tickOrder u =
      { state := w.state.clkUnit tickOrder w.restarted u
        overtaken := w.overtaken ++ w.state.overtaken u
        restarted := w.restarted ++ w.state.restartedBy u } := by
  rw [EdgeWork.take, if_neg (by rw [h]; exact Bool.false_ne_true)]

/-- A part that an earlier one overtook changes nothing. -/
theorem EdgeWork.take_of_overtaken {w : EdgeWork} {u : Config.EdgeUnit} (h : w.overtaken.contains u = true)
    (tickOrder : List TickUnit) : w.take tickOrder u = w := if_pos h

/-- A part whose edge is over: a tick that begins on it is as long as the divider recorded (R12), and one edge more is
counted. -/
def State.edgeOver (s : State) : State :=
  { s with tickLength := if s.tickPhase = 0 then s.divider else s.tickLength, clkEdges := s.clkEdges + 1 }

/-- A step on an empty queue whose tick event is whole: what holds before the edge, and is kept by each of its parts, holds
after it in every order, when the edge is over (log entry 4). -/
theorem step_of_idle {P : Bool → Bool → Bool → EdgeWork → Prop} {s : State} (hq : s.pending = [])
    (hr : s.inReset = false) (ht : s.TickWhole) (h0 : P false false false { state := s, overtaken := [], restarted := [] })
    (hT : ∀ tickOrder b c w, P false b c w → P true b c (EdgeWork.take tickOrder w .timebase))
    (hS : ∀ tickOrder a c w, P a false c w → P a true c (EdgeWork.take tickOrder w .tripSamples))
    (hE : ∀ tickOrder a b w, P a b false w → P a b true (EdgeWork.take tickOrder w .execution)) :
    ∃ w, P true true true w ∧ step s = .next w.state.edgeOver := by
  refine ⟨_, EdgeWork.order_ind (orderedBy_perm (Config.edgeOrder s.clkEdges) edgeUnits (by decide)) h0
    (hT (orderedBy (Config.tickOrder s.clkEdges) tickUnits)) (hS _) (hE _), ?_⟩
  unfold step
  rw [hq]
  dsimp only
  rw [State.clkEdge, State.whenRunning_of_running hr, State.settle_of_tickWhole ht]
  unfold State.clkParts State.clkPartsIn State.beginsWithDivider State.edgeOver
  dsimp only
  split <;> rfl

/-! ### The parts of an edge -/

/-- No TRIP ends on the edge where no TRIP waits (R135). -/
theorem State.tripEndsHere_of_no_trip {s : State} (h : ∀ tag g, s.link.buffer ≠ .executing (.waiting (.trip tag g))) :
    s.tripEndsHere = none := by
  unfold State.tripEndsHere
  split
  · next tag g hb => exact absurd hb (h tag g)
  · rfl

/-- A TRIP that waits on its bound ends on the edge (R135, R146). -/
theorem State.tripEndsHere_of_trip {s : State} {tag : Byte} {g : LaneGroup}
    (hb : s.link.buffer = .executing (.waiting (.trip tag g))) (ha : 160 ≤ s.link.age + 1) (hg : g ≠ 0) :
    s.tripEndsHere = some (tag, g) := by
  have he : s.executionEndsHere = true := by simp [State.executionEndsHere, hb, Config.executionBound, ha]
  simp only [State.tripEndsHere, hb, he, decide_eq_true hg, Bool.and_self, if_true]

/-- An execution that has lasted its bound ends on the edge: its request is taken and answered (R146). -/
theorem State.clkExecution_of_waiting {s : State} {c : Instr} (hb : s.link.buffer = .executing (.waiting c))
    (ha : 160 ≤ s.link.age + 1) :
    s.clkExecution = (s.serveSettled c).1.setBuffer (.ready (responseFrame c.tag (s.serveSettled c).2)) := by
  have he : s.executionEndsHere = true := by simp [State.executionEndsHere, hb, Config.executionBound, ha]
  simp only [State.clkExecution, State.endExecution, hb, he, if_true]

/-- The count of a CLK period leaves the pins as they were (R1). -/
theorem State.clkTimebase_pins (s : State) (order : List TickUnit) : (s.clkTimebase order).pins = s.pins := by
  unfold State.clkTimebase
  split
  · exact s.tick_pins s.pins.trg order
  · rfl

/-- The count of a CLK period leaves the link as it was (R1). -/
theorem State.clkTimebase_link (s : State) (order : List TickUnit) : (s.clkTimebase order).link = s.link :=
  (s.clkTimebase_outside order).2.2.2.1

/-- The count of a CLK period leaves the sources as they were (R1). -/
theorem State.clkTimebase_trip (s : State) (order : List TickUnit) (i : TripInput) :
    (s.clkTimebase order).trip i = s.trip i := by
  obtain ⟨ha, hb, -⟩ := (s.clkTimebase_outside order).2.2.1
  cases i
  · exact ha
  · exact hb

/-- The count of a CLK period that ends no tick changes no record of a run (R1). -/
theorem State.clkTimebase_sameRuns {s : State} (h : s.tickPhase + 1 < s.tickLength) (order : List TickUnit) :
    s.SameRuns (s.clkTimebase order) := by
  rw [State.clkTimebase, if_neg (Nat.not_le.mpr h)]
  exact ⟨rfl, rfl, rfl, rfl, rfl⟩

/-! ### The timebase along an edge -/

/-- The timebase of a part of the edge on `s`: its count of the edge taken, or not yet (R1). The length of a tick that begins
on the edge is settled when the edge is over (R12). -/
def State.TickCount (s : State) (counted : Bool) (t : State) : Prop :=
  if counted = true then
    if s.tickPhase + 1 < s.tickLength then
      t.now = s.now ∧ t.tickPhase = s.tickPhase + 1 ∧ t.tickLength = s.tickLength
    else t.now = s.now + 1 ∧ t.tickPhase = 0
  else t.now = s.now ∧ t.tickPhase = s.tickPhase ∧ t.tickLength = s.tickLength

theorem State.TickCount.congr {s t u : State} {a : Bool} (h : s.TickCount a t)
    (hu : u.now = t.now ∧ u.tickPhase = t.tickPhase ∧ u.tickLength = t.tickLength) : s.TickCount a u := by
  obtain ⟨h1, h2, h3⟩ := hu
  unfold State.TickCount at *
  rwa [h1, h2, h3]

/-- The timebase's own part counts the edge (R1). -/
theorem State.TickCount.clkTimebase {s t : State} (h : s.TickCount false t) (order : List TickUnit) :
    s.TickCount true (t.clkTimebase order) := by
  obtain ⟨h1, h2, h3⟩ : t.now = s.now ∧ t.tickPhase = s.tickPhase ∧ t.tickLength = s.tickLength := h
  have ht := (t.clkTimebase_outside order).1
  rw [h1, h2, h3] at ht
  unfold State.TickCount
  rw [if_pos rfl]
  split
  · next hc => rwa [if_pos hc] at ht
  · next hc =>
    rw [if_neg hc] at ht
    exact ⟨ht.1, ht.2.1⟩

/-- The timebase when the edge is over (R1, R12). -/
theorem State.TickCount.edgeOver {s t : State} (h : s.TickCount true t) :
    if s.tickPhase + 1 < s.tickLength then
      t.edgeOver.now = s.now ∧ t.edgeOver.tickPhase = s.tickPhase + 1 ∧ t.edgeOver.tickLength = s.tickLength
    else t.edgeOver.now = s.now + 1 ∧ t.edgeOver.tickPhase = 0 ∧ t.edgeOver.tickLength = t.divider := by
  unfold State.TickCount at h
  rw [if_pos rfl] at h
  split
  · next hc =>
    rw [if_pos hc] at h
    obtain ⟨h1, h2, h3⟩ := h
    exact ⟨h1, h2, (if_neg (by rw [h2]; exact Nat.succ_ne_zero _)).trans h3⟩
  · next hc =>
    rw [if_neg hc] at h
    exact ⟨h.1, h.2, if_pos h.2⟩

end Sys2Proof.Machine
end

section
/-! SUPPORT. The kinds of CLK edge: a steady part, and an edge on which the execution of a SET_TIME, a SET_DIVIDER, a TRIP or a
TRIP_CONFIG ends (R10, R12, R133, R137). -/

namespace Sys2Proof.Machine

/-! ### Samples not yet taken, and taken -/

/-- An edge on `s` of which the timebase's part at most has been taken. -/
structure State.Unsampled (s : State) (counted : Bool) (w : EdgeWork) : Prop where
  overtaken : w.overtaken = []
  restarted : w.restarted = []
  link : w.state.link = s.link
  soft : w.state.soft = s.soft
  pins : w.state.pins = s.pins
  divider : w.state.divider = s.divider
  clkEdges : w.state.clkEdges = s.clkEdges
  trip : ∀ i, w.state.trip i = s.trip i
  tick : s.TickCount counted w.state
  runs : s.tickPhase + 1 < s.tickLength → s.SameRuns w.state

/-- A part of the edge on `s` that has taken the samples of the edge, with a trip of SOFT for the group `g` (R128, R133). -/
structure State.Sampled (s : State) (counted : Bool) (g : LaneGroup) (t : State) : Prop where
  divider : t.divider = s.divider
  clkEdges : t.clkEdges = s.clkEdges
  trip : ∀ i, t.trip i = (s.trip i).atEdge (s.tripPin i)
  tick : s.TickCount counted t
  runs : s.tickPhase + 1 < s.tickLength → s.TrippedOnEdge t g

section Samples

variable {s t u : State} {w : EdgeWork} {a : Bool} {g : LaneGroup}

theorem State.Unsampled.refl (s : State) : s.Unsampled false { state := s, overtaken := [], restarted := [] } :=
  ⟨rfl, rfl, rfl, rfl, rfl, rfl, rfl, fun _ => rfl, ⟨rfl, rfl, rfl⟩, fun _ => .refl s⟩

/-- A tick in progress on `s` is in progress on a part whose timebase has not counted the edge. -/
theorem State.TickCount.running (h : s.TickCount false t) (hc : s.tickPhase + 1 < s.tickLength) :
    t.tickPhase + 1 < t.tickLength := by
  obtain ⟨-, h2, h3⟩ : t.now = s.now ∧ t.tickPhase = s.tickPhase ∧ t.tickLength = s.tickLength := h
  rwa [h2, h3]

/-- The timebase's part, taken before the samples (R1). -/
theorem State.Unsampled.takeTimebase (h : s.Unsampled false w) (tickOrder : List TickUnit) :
    s.Unsampled true (w.take tickOrder .timebase) := by
  rw [EdgeWork.take_of_not_overtaken (by rw [h.overtaken]; rfl)]
  obtain ⟨-, hdiv, ⟨-, -, hsoft⟩, hlink, -, hclk⟩ := w.state.clkTimebase_outside tickOrder
  exact ⟨by rw [h.overtaken]; rfl, by rw [h.restarted]; rfl, hlink.trans h.link, hsoft.trans h.soft,
    (w.state.clkTimebase_pins tickOrder).trans h.pins, hdiv.trans h.divider, hclk.trans h.clkEdges,
    fun i => (w.state.clkTimebase_trip tickOrder i).trans (h.trip i), h.tick.clkTimebase tickOrder,
    fun hc => (h.runs hc).trans (State.clkTimebase_sameRuns (h.tick.running hc) tickOrder)⟩

/-- The timebase's part, taken after the samples (R1). -/
theorem State.Sampled.clkTimebase (h : s.Sampled false g t) (tickOrder : List TickUnit) :
    s.Sampled true g (t.clkTimebase tickOrder) := by
  obtain ⟨-, hdiv, -, -, -, hclk⟩ := t.clkTimebase_outside tickOrder
  exact ⟨hdiv.trans h.divider, hclk.trans h.clkEdges, fun i => (t.clkTimebase_trip tickOrder i).trans (h.trip i),
    h.tick.clkTimebase tickOrder, fun hc => State.TripEffect.congr (h.runs hc) (.refl s)
      (State.clkTimebase_sameRuns (h.tick.running hc) tickOrder)⟩

/-- The samples, taken on a part of the edge whose sources and pins are still those of `s` (R128, R133). -/
theorem State.Unsampled.sampled (h : s.Unsampled a w) (ht : w.state.TrippedOnEdge (w.state.clkTrips []) g) :
    s.Sampled a g (w.state.clkTrips []) := by
  obtain ⟨⟨h1, h2, h3, h4⟩, -, htrip, hclk⟩ := w.state.clkTrips_frame []
  have hpin : ∀ i, w.state.tripPin i = s.tripPin i := fun i => by cases i <;> simp only [State.tripPin, h.pins]
  have hgroup : ∀ i, w.state.edgeGroup i = s.edgeGroup i := fun i => by rw [State.edgeGroup, State.edgeGroup, h.trip, hpin]
  refine ⟨h2.trans h.divider, hclk.trans h.clkEdges, fun i => ?_, h.tick.congr ⟨h1, h4, h3⟩, fun hc => ?_⟩
  · rw [htrip, State.sourceAtEdge_nil, h.trip, hpin]
  · have hr := h.runs hc
    have hlane : ∀ l, w.state.lane l = s.lane l := fun l => by rw [State.lane, State.lane, hr.lanes]
    unfold State.TrippedOnEdge at ht ⊢
    simp only [hgroup, hlane] at ht
    exact ht.congr ⟨hr.now.symm, hr.entries.symm, hr.due.symm, hr.lines.symm, hr.lanes.symm⟩ (.refl _)

/-- The end of the edge changes no record of a run. -/
theorem State.edgeOver_sameRuns (t : State) : t.SameRuns t.edgeOver := ⟨rfl, rfl, rfl, rfl, rfl⟩

/-- What the samples did to runs and lanes stands when the edge is over. -/
theorem State.Sampled.trippedOnEdge (h : s.Sampled a g t) (hc : s.tickPhase + 1 < s.tickLength) :
    s.TrippedOnEdge t.edgeOver g := State.TripEffect.congr (h.runs hc) (.refl s) t.edgeOver_sameRuns

end Samples

/-! ### An edge on a steady part (R1, R128) -/

/-- An edge on a steady part `s`, some of its parts taken. -/
def State.SteadyEdge (s : State) (counted sampled _ended : Bool) (w : EdgeWork) : Prop :=
  if sampled = true then
    w.overtaken = [] ∧ w.state.link = s.link ∧ w.state.soft = s.soft ∧ s.Sampled counted 0 w.state
  else s.Unsampled counted w

/-- Where no execution is in progress its part of the edge changes nothing (R145). -/
theorem EdgeWork.take_execution_of_not_executing {w : EdgeWork} (ho : w.overtaken = [])
    (h : w.state.link.buffer.isExecuting = false) (tickOrder : List TickUnit) : w.take tickOrder .execution = w := by
  obtain ⟨ho', hr'⟩ := State.overtaken_of_not_executing h .execution
  rw [EdgeWork.take_of_not_overtaken (by rw [ho]; rfl), ho', hr', List.append_nil, List.append_nil, State.clkUnit,
    State.tripEndsHere_of_not_executing h, State.clkExecution_of_not_executing h]
  rfl

section Steady

variable {s : State} {w : EdgeWork} {a b c : Bool}

theorem State.SteadyEdge.takeTimebase (hw : s.SteadyEdge false b c w) (tickOrder : List TickUnit) :
    s.SteadyEdge true b c (w.take tickOrder .timebase) := by
  cases b
  · exact State.Unsampled.takeTimebase hw tickOrder
  · obtain ⟨ho, hl, hsoft, hsam⟩ := hw
    obtain ⟨-, -, ⟨-, -, hsoft'⟩, hl', -⟩ := w.state.clkTimebase_outside tickOrder
    rw [EdgeWork.take_of_not_overtaken (by rw [ho]; rfl)]
    exact ⟨by rw [ho]; rfl, hl'.trans hl, hsoft'.trans hsoft, hsam.clkTimebase tickOrder⟩

theorem State.SteadyEdge.takeSamples (hb : s.link.buffer.isExecuting = false) (hw : s.SteadyEdge a false c w)
    (tickOrder : List TickUnit) : s.SteadyEdge a true c (w.take tickOrder .tripSamples) := by
  have hu : s.Unsampled a w := hw
  have hn : w.state.tripEndsHere = none := State.tripEndsHere_of_not_executing (by rw [hu.link]; exact hb)
  obtain ⟨hsoft, hl, hte⟩ := State.clkTrips_of_none hn
  rw [EdgeWork.take_of_not_overtaken (by rw [hu.overtaken]; rfl), hu.restarted]
  exact ⟨by simp [hu.overtaken, State.overtaken, hn], (hl []).trans hu.link, hsoft.trans hu.soft, hu.sampled hte⟩

theorem State.SteadyEdge.takeExecution (hb : s.link.buffer.isExecuting = false) (hw : s.SteadyEdge a b false w)
    (tickOrder : List TickUnit) : s.SteadyEdge a b true (w.take tickOrder .execution) := by
  have hsame : w.overtaken = [] ∧ w.state.link = s.link := by
    cases b
    · exact ⟨State.Unsampled.overtaken hw, State.Unsampled.link hw⟩
    · exact ⟨hw.1, hw.2.1⟩
  rw [EdgeWork.take_execution_of_not_executing hsame.1 (by rw [hsame.2]; exact hb)]
  exact hw

end Steady

/-- The step of a steady part on an empty queue. -/
theorem step_of_steady {s : State} (hq : s.pending = []) (h : s.Steady) :
    ∃ t : State, step s = .next t.edgeOver ∧ t.link = s.link ∧ t.soft = s.soft ∧ s.Sampled true 0 t := by
  obtain ⟨hr, ht, hb⟩ := h
  obtain ⟨w, ⟨-, hw⟩, hs⟩ := step_of_idle (P := s.SteadyEdge) hq hr ht (State.Unsampled.refl s)
    (fun tickOrder _ _ _ hw => hw.takeTimebase tickOrder) (fun tickOrder _ _ _ hw => hw.takeSamples hb tickOrder)
    (fun tickOrder _ _ _ hw => hw.takeExecution hb tickOrder)
  exact ⟨w.state, hs, hw⟩

/-! ### An edge on which a TRIP ends (R133, R135) -/

/-- An edge on `s` on which the execution of a TRIP of the group `g` ends, some of its parts taken: the samples and the end of
the TRIP are taken by whichever comes first, and the other is overtaken. -/
def State.TripEdge (s : State) (tag : Byte) (g : LaneGroup) (counted sampled ended : Bool) (w : EdgeWork) : Prop :=
  if (sampled || ended) = true then
    (counted = false → w.overtaken.contains .timebase = false) ∧
      (sampled = false → w.overtaken.contains .tripSamples = true) ∧
      (ended = false → w.overtaken.contains .execution = true) ∧
      w.state.soft = s.soft.tripped g ∧ w.state.link.buffer = .ready (frameOf 0x00 tag []) ∧
      s.Sampled counted (s.soft.newly g) w.state
  else s.Unsampled counted w

/-- The samples and the end of the TRIP, taken as one by either part (R133). -/
theorem State.Unsampled.takeTrip {s : State} {tag : Byte} {g : LaneGroup} {a : Bool} {w : EdgeWork} (h : s.Unsampled a w)
    (he : s.EndsExecutionOf (.trip tag g)) (hg : g ≠ 0) :
    w.state.tripEndsHere = some (tag, g) ∧ (w.state.clkTrips []).soft = s.soft.tripped g ∧
      (w.state.clkTrips []).link.buffer = .ready (frameOf 0x00 tag []) ∧
      s.Sampled a (s.soft.newly g) (w.state.clkTrips []) := by
  obtain ⟨-, -, hb, hage⟩ := he
  have hn : w.state.tripEndsHere = some (tag, g) :=
    State.tripEndsHere_of_trip (by rw [h.link]; exact hb) (by rw [h.link]; exact hage) hg
  obtain ⟨hsoft, hbuf, hte⟩ := State.clkTrips_of_some hn
  rw [h.soft] at hsoft hte
  exact ⟨hn, hsoft, hbuf, h.sampled hte⟩

section Trip

variable {s : State} {tag : Byte} {g : LaneGroup} {w : EdgeWork} {a b c : Bool}

theorem State.TripEdge.takeTimebase (hw : s.TripEdge tag g false b c w) (tickOrder : List TickUnit) :
    s.TripEdge tag g true b c (w.take tickOrder .timebase) := by
  unfold State.TripEdge at hw ⊢
  by_cases hbc : (b || c) = true
  · rw [if_pos hbc] at hw ⊢
    obtain ⟨hT, hS, hE, hsoft, hbuf, hsam⟩ := hw
    obtain ⟨-, -, ⟨-, -, hsoft'⟩, hl', -⟩ := w.state.clkTimebase_outside tickOrder
    rw [EdgeWork.take_of_not_overtaken (hT rfl)]
    exact ⟨nofun, fun h => by simpa using Or.inl (hS h), fun h => by simpa using Or.inl (hE h), hsoft'.trans hsoft,
      (congrArg Link.buffer hl').trans hbuf, hsam.clkTimebase tickOrder⟩
  · rw [if_neg hbc] at hw ⊢
    exact hw.takeTimebase tickOrder

theorem State.TripEdge.takeSamples (he : s.EndsExecutionOf (.trip tag g)) (hg : g ≠ 0) (hw : s.TripEdge tag g a false c w)
    (tickOrder : List TickUnit) : s.TripEdge tag g a true c (w.take tickOrder .tripSamples) := by
  cases c
  · have hu : s.Unsampled a w := hw
    obtain ⟨hn, hsoft, hbuf, hsam⟩ := hu.takeTrip he hg
    rw [EdgeWork.take_of_not_overtaken (by rw [hu.overtaken]; rfl), hu.restarted]
    refine ⟨fun _ => ?_, nofun, fun _ => ?_, hsoft, hbuf, hsam⟩ <;> simp [hu.overtaken, State.overtaken, hn]
  · obtain ⟨hT, hS, -, hrest⟩ := hw
    rw [EdgeWork.take_of_overtaken (hS rfl)]
    exact ⟨hT, nofun, nofun, hrest⟩

theorem State.TripEdge.takeExecution (he : s.EndsExecutionOf (.trip tag g)) (hg : g ≠ 0)
    (hw : s.TripEdge tag g a b false w) (tickOrder : List TickUnit) :
    s.TripEdge tag g a b true (w.take tickOrder .execution) := by
  cases b
  · have hu : s.Unsampled a w := hw
    obtain ⟨hn, hsoft, hbuf, hsam⟩ := hu.takeTrip he hg
    obtain ⟨-, -, hwait, -⟩ := he
    have hab : w.state.abandonsTick = false := by
      unfold State.abandonsTick
      rw [hu.link, hwait]
    rw [EdgeWork.take_of_not_overtaken (by rw [hu.overtaken]; rfl), hu.restarted, State.clkUnit, hn]
    refine ⟨fun _ => ?_, fun _ => ?_, nofun, hsoft, hbuf, hsam⟩ <;> simp [hu.overtaken, State.overtaken, hn, hab]
  · obtain ⟨hT, -, hE, hrest⟩ := hw
    rw [EdgeWork.take_of_overtaken (hE rfl)]
    exact ⟨hT, nofun, nofun, hrest⟩

end Trip

/-- The step of a part on which the execution of a TRIP ends. -/
theorem step_of_trip {s : State} {tag : Byte} {g : LaneGroup} (hq : s.pending = []) (he : s.EndsExecutionOf (.trip tag g))
    (hg : g ≠ 0) :
    ∃ t : State, step s = .next t.edgeOver ∧ t.soft = s.soft.tripped g ∧
      t.link.buffer = .ready (frameOf 0x00 tag []) ∧ s.Sampled true (s.soft.newly g) t := by
  obtain ⟨w, ⟨-, -, -, hw⟩, hs⟩ := step_of_idle (P := s.TripEdge tag g) hq he.1 he.2.1 (State.Unsampled.refl s)
    (fun tickOrder _ _ _ hw => hw.takeTimebase tickOrder) (fun tickOrder _ _ _ hw => hw.takeSamples he hg tickOrder)
    (fun tickOrder _ _ _ hw => hw.takeExecution he hg tickOrder)
  exact ⟨w.state, hs, hw⟩

/-! ### An edge on which a request of the timebase ends (R10, R12) -/

/-- An edge on a part `s` that stands still, whose execution has not ended yet. -/
structure State.StillWaits (s : State) (w : EdgeWork) : Prop where
  overtaken : w.overtaken = []
  link : w.state.link = s.link
  divider : w.state.divider = s.divider
  stopped : w.state.Stopped

section TimeRequests

variable {s : State} {w : EdgeWork} {a b c : Bool}

theorem State.StillWaits.takeTimebase (h : s.StillWaits w) (tickOrder : List TickUnit) :
    s.StillWaits (w.take tickOrder .timebase) := by
  obtain ⟨-, hdiv, -, hlink, -⟩ := w.state.clkTimebase_outside tickOrder
  rw [EdgeWork.take_of_not_overtaken (by rw [h.overtaken]; rfl)]
  exact ⟨by rw [h.overtaken]; rfl, hlink.trans h.link, hdiv.trans h.divider, h.stopped.clkTimebase tickOrder⟩

theorem State.StillWaits.takeSamples (h : s.StillWaits w) (hn : w.state.tripEndsHere = none) (tickOrder : List TickUnit) :
    s.StillWaits (w.take tickOrder .tripSamples) := by
  obtain ⟨⟨-, hdiv, -, -⟩, -⟩ := w.state.clkTrips_frame w.restarted
  rw [EdgeWork.take_of_not_overtaken (by rw [h.overtaken]; rfl)]
  exact ⟨by simp [h.overtaken, State.overtaken, hn], ((State.clkTrips_of_none hn).2.1 _).trans h.link, hdiv.trans h.divider,
    h.stopped.clkTrips _⟩

/-- A SET_TIME is accepted on a part that stands still (R9, R10). -/
theorem State.Stopped.serveSettled_setTime {u : State} (h : u.Stopped) (tag : Byte) (v : Instant) :
    u.serveSettled (.setTime tag v) = (u.settle.restartTick v, .ok) := by
  simp [State.serveSettled, serve, reqSetTime, h.settle.not_busy]

/-- A SET_DIVIDER in range is accepted on a part that stands still (R12, R13). -/
theorem State.Stopped.serveSettled_setDivider {u : State} (h : u.Stopped) (tag : Byte) {m : BitVec 16} (h1 : 1 ≤ m.toNat)
    (h2 : m.toNat ≤ 256) : u.serveSettled (.setDivider tag m) = (u.settle.recordDivider m.toNat, .ok) := by
  have hm : ¬ (m.toNat < 1 ∨ 256 < m.toNat) := by omega
  simp only [State.serveSettled, serve, reqSetDivider, h.settle.not_busy, if_neg hm, Bool.false_eq_true, if_false,
    Option.getD_some]

/-- An edge on which the execution of a SET_TIME ends, some of its parts taken: once it has ended, the count of the tick it
abandoned is overtaken (R10). -/
def State.SetTimeEdge (s : State) (tag : Byte) (v : Instant) (_counted _sampled ended : Bool) (w : EdgeWork) : Prop :=
  if ended = true then
    w.overtaken.contains .timebase = true ∧ w.state.now = v ∧ w.state.tickPhase = 0 ∧ w.state.divider = s.divider ∧
      w.state.link.buffer = .ready (frameOf 0x00 tag [])
  else s.StillWaits w

theorem State.SetTimeEdge.takeTimebase {tag : Byte} {v : Instant} (hw : s.SetTimeEdge tag v false b c w)
    (tickOrder : List TickUnit) : s.SetTimeEdge tag v true b c (w.take tickOrder .timebase) := by
  cases c
  · exact State.StillWaits.takeTimebase hw tickOrder
  · rw [EdgeWork.take_of_overtaken hw.1]
    exact hw

theorem State.SetTimeEdge.takeSamples {tag : Byte} {v : Instant}
    (hb : s.link.buffer = .executing (.waiting (.setTime tag v))) (hw : s.SetTimeEdge tag v a false c w)
    (tickOrder : List TickUnit) : s.SetTimeEdge tag v a true c (w.take tickOrder .tripSamples) := by
  cases c
  · have hu : s.StillWaits w := hw
    exact hu.takeSamples (State.tripEndsHere_of_no_trip fun _ _ c => by simp [hu.link, hb] at c) tickOrder
  · obtain ⟨ho, hnow, hphase, hdiv, hbuf⟩ := hw
    cases hS : w.overtaken.contains .tripSamples
    · have hn : w.state.tripEndsHere = none := State.tripEndsHere_of_no_trip fun _ _ c => by simp [hbuf] at c
      obtain ⟨⟨hnow', hdiv', -, hphase'⟩, -⟩ := w.state.clkTrips_frame w.restarted
      rw [EdgeWork.take_of_not_overtaken hS]
      exact ⟨by simpa using Or.inl ho, hnow'.trans hnow, hphase'.trans hphase, hdiv'.trans hdiv,
        (congrArg Link.buffer ((State.clkTrips_of_none hn).2.1 _)).trans hbuf⟩
    · rw [EdgeWork.take_of_overtaken hS]
      exact ⟨ho, hnow, hphase, hdiv, hbuf⟩

/-- The end of the SET_TIME's execution abandons the tick in progress (R10). -/
theorem State.SetTimeEdge.takeExecution {tag : Byte} {v : Instant} (he : s.EndsExecutionOf (.setTime tag v))
    (hw : s.SetTimeEdge tag v a b false w) (tickOrder : List TickUnit) :
    s.SetTimeEdge tag v a b true (w.take tickOrder .execution) := by
  have hu : s.StillWaits w := hw
  obtain ⟨-, -, hwait, hbound⟩ := he
  have hb : w.state.link.buffer = .executing (.waiting (.setTime tag v)) := hu.link ▸ hwait
  have hage : 160 ≤ w.state.link.age + 1 := hu.link ▸ hbound
  have hn : w.state.tripEndsHere = none := State.tripEndsHere_of_no_trip fun _ _ c => by simp [hb] at c
  have hserve := hu.stopped.serveSettled_setTime tag v
  have hab : w.state.abandonsTick = true := by
    have hends : w.state.executionEndsHere = true := by simp [State.executionEndsHere, hb, Config.executionBound, hage]
    unfold State.abandonsTick
    rw [hb]
    simp only [hends, hserve]
    rfl
  rw [EdgeWork.take_of_not_overtaken (by rw [hu.overtaken]; rfl), State.clkUnit, hn, if_neg (by simp),
    State.clkExecution_of_waiting hb hage, hserve]
  have ho : (w.overtaken ++ w.state.overtaken .execution).contains .timebase = true := by simp [State.overtaken, hab]
  have hdiv : w.state.settle.divider = s.divider := by
    obtain ⟨⟨-, hsettle, -⟩, -⟩ := w.state.settle_outside
    exact hsettle.trans hu.divider
  generalize w.state.settle = u at hdiv ⊢
  exact ⟨ho, rfl, rfl, hdiv, rfl⟩

/-- The step of a part that stands still on which the execution of a SET_TIME ends (R10). -/
theorem step_of_setTime {tag : Byte} {v : Instant} (hq : s.pending = []) (he : s.EndsExecutionOf (.setTime tag v))
    (hs : s.Stopped) :
    ∃ t : State, step s = .next t.edgeOver ∧ t.now = v ∧ t.tickPhase = 0 ∧ t.divider = s.divider ∧
      t.link.buffer = .ready (frameOf 0x00 tag []) := by
  obtain ⟨hr, ht, hb, -⟩ := id he
  obtain ⟨w, ⟨-, hw⟩, hst⟩ := step_of_idle (P := s.SetTimeEdge tag v) hq hr ht
    (⟨rfl, rfl, rfl, hs⟩ : s.StillWaits { state := s, overtaken := [], restarted := [] })
    (fun tickOrder _ _ _ hw => hw.takeTimebase tickOrder) (fun tickOrder _ _ _ hw => hw.takeSamples hb tickOrder)
    (fun tickOrder _ _ _ hw => hw.takeExecution he tickOrder)
  exact ⟨w.state, hst, hw⟩

/-- An edge on which the execution of a SET_DIVIDER ends, some of its parts taken (R12). -/
def State.SetDividerEdge (s : State) (tag : Byte) (m : BitVec 16) (counted _sampled ended : Bool) (w : EdgeWork) : Prop :=
  s.TickCount counted w.state ∧
    if ended = true then
      w.overtaken = [] ∧ w.state.divider = m.toNat ∧ w.state.link.buffer = .ready (frameOf 0x00 tag [])
    else s.StillWaits w

theorem State.SetDividerEdge.takeTimebase {tag : Byte} {m : BitVec 16} (h : s.SetDividerEdge tag m false b c w)
    (tickOrder : List TickUnit) : s.SetDividerEdge tag m true b c (w.take tickOrder .timebase) := by
  obtain ⟨htick, hw⟩ := h
  cases c
  · have hu : s.StillWaits w := hw
    refine ⟨?_, hu.takeTimebase tickOrder⟩
    rw [EdgeWork.take_of_not_overtaken (by rw [hu.overtaken]; rfl)]
    exact htick.clkTimebase tickOrder
  · obtain ⟨ho, hdiv, hbuf⟩ := hw
    obtain ⟨-, hdiv', -, hl', -⟩ := w.state.clkTimebase_outside tickOrder
    rw [EdgeWork.take_of_not_overtaken (by rw [ho]; rfl)]
    exact ⟨htick.clkTimebase tickOrder, by rw [ho]; rfl, hdiv'.trans hdiv, (congrArg Link.buffer hl').trans hbuf⟩

theorem State.SetDividerEdge.takeSamples {tag : Byte} {m : BitVec 16}
    (hb : s.link.buffer = .executing (.waiting (.setDivider tag m))) (h : s.SetDividerEdge tag m a false c w)
    (tickOrder : List TickUnit) : s.SetDividerEdge tag m a true c (w.take tickOrder .tripSamples) := by
  obtain ⟨htick, hw⟩ := h
  obtain ⟨⟨hnow', hdiv', hlen', hphase'⟩, -⟩ := w.state.clkTrips_frame w.restarted
  cases c
  · have hu : s.StillWaits w := hw
    refine ⟨?_, hu.takeSamples (State.tripEndsHere_of_no_trip fun _ _ c => by simp [hu.link, hb] at c) tickOrder⟩
    rw [EdgeWork.take_of_not_overtaken (by rw [hu.overtaken]; rfl)]
    exact htick.congr ⟨hnow', hphase', hlen'⟩
  · obtain ⟨ho, hdiv, hbuf⟩ := hw
    have hn : w.state.tripEndsHere = none := State.tripEndsHere_of_no_trip fun _ _ c => by simp [hbuf] at c
    rw [EdgeWork.take_of_not_overtaken (by rw [ho]; rfl)]
    exact ⟨htick.congr ⟨hnow', hphase', hlen'⟩, by simp [ho, State.overtaken, hn], hdiv'.trans hdiv,
      (congrArg Link.buffer ((State.clkTrips_of_none hn).2.1 _)).trans hbuf⟩

/-- The end of the SET_DIVIDER's execution records the divider, and leaves the tick in progress (R12). -/
theorem State.SetDividerEdge.takeExecution {tag : Byte} {m : BitVec 16} (he : s.EndsExecutionOf (.setDivider tag m))
    (h1 : 1 ≤ m.toNat) (h2 : m.toNat ≤ 256) (h : s.SetDividerEdge tag m a b false w) (tickOrder : List TickUnit) :
    s.SetDividerEdge tag m a b true (w.take tickOrder .execution) := by
  obtain ⟨htick, hw⟩ := h
  have hu : s.StillWaits w := hw
  obtain ⟨-, -, hwait, hbound⟩ := he
  have hb : w.state.link.buffer = .executing (.waiting (.setDivider tag m)) := hu.link ▸ hwait
  have hage : 160 ≤ w.state.link.age + 1 := hu.link ▸ hbound
  have hn : w.state.tripEndsHere = none := State.tripEndsHere_of_no_trip fun _ _ c => by simp [hb] at c
  have hab : w.state.abandonsTick = false := by
    unfold State.abandonsTick
    rw [hb]
  have ho : w.overtaken ++ w.state.overtaken .execution = [] := by simp [hu.overtaken, State.overtaken, hab, hn]
  obtain ⟨⟨hnow', -, hlen', hphase'⟩, -⟩ := w.state.settle_outside
  rw [EdgeWork.take_of_not_overtaken (by rw [hu.overtaken]; rfl), State.clkUnit, hn, if_neg (by simp),
    State.clkExecution_of_waiting hb hage, hu.stopped.serveSettled_setDivider tag h1 h2]
  generalize w.state.settle = u at hnow' hlen' hphase' ⊢
  exact ⟨htick.congr ⟨hnow', hphase', hlen'⟩, ho, rfl, rfl⟩

/-- The step of a part that stands still on which the execution of a SET_DIVIDER in range ends (R12). -/
theorem step_of_setDivider {tag : Byte} {m : BitVec 16} (hq : s.pending = []) (he : s.EndsExecutionOf (.setDivider tag m))
    (hs : s.Stopped) (h1 : 1 ≤ m.toNat) (h2 : m.toNat ≤ 256) :
    ∃ t : State, step s = .next t.edgeOver ∧ s.TickCount true t ∧ t.divider = m.toNat ∧
      t.link.buffer = .ready (frameOf 0x00 tag []) := by
  obtain ⟨hr, ht, hb, -⟩ := id he
  obtain ⟨w, ⟨htick, -, hw⟩, hst⟩ := step_of_idle (P := s.SetDividerEdge tag m) hq hr ht
    ⟨⟨rfl, rfl, rfl⟩, (⟨rfl, rfl, rfl, hs⟩ : s.StillWaits { state := s, overtaken := [], restarted := [] })⟩
    (fun tickOrder _ _ _ hw => hw.takeTimebase tickOrder) (fun tickOrder _ _ _ hw => hw.takeSamples hb tickOrder)
    (fun tickOrder _ _ _ hw => hw.takeExecution he h1 h2 tickOrder)
  exact ⟨w.state, hst, htick, hw⟩

end TimeRequests

end Sys2Proof.Machine
end

section
/-! SUPPORT. An edge on which the execution of a TRIP_CONFIG ends (R137), and the statement about every edge. -/

namespace Sys2Proof.Machine

/-! ### A TRIP_CONFIG that restarts a filter (R128, R137) -/

/-- An enabled QUIET source as a configuration that restarts its filter leaves it (R128, R137). -/
def TripSource.configuredAnew (level : Level) (k : Nat) (g : LaneGroup) : TripSource :=
  ⟨true, level, k, g, .inactive, 0, .quiet⟩

/-- The source keeps its filter in a configuration that enables it with the level and depth given (R137). -/
abbrev TripSource.SameFilter (r : TripSource) (level : Level) (k : Nat) : Prop :=
  r.enabled = true ∧ r.activeLevel = level ∧ r.depth = k

/-- A QUIET source whose filter a configuration restarts (R137). -/
theorem TripSource.configure_of_restart {r : TripSource} (hq : r.state = .quiet) {level : Level} {k : Nat}
    (h : ¬ r.SameFilter level k) (g : LaneGroup) :
    r.configure true level k g = .configuredAnew level k g ∧ r.keepsFilter (.configuredAnew level k g) = false := by
  have hk : ∀ r' : TripSource, r'.activeLevel = level → r'.depth = k → r.keepsFilter r' = false := fun r' hl hd => by
    rw [← Bool.not_eq_true, TripSource.keepsFilter]
    simp only [Bool.and_eq_true, decide_eq_true_eq]
    rintro ⟨⟨⟨he, -⟩, hl'⟩, hd'⟩
    exact h ⟨he, hl'.trans hl, hd'.trans hd⟩
  refine ⟨?_, hk _ rfl rfl⟩
  unfold TripSource.configure
  dsimp only
  rw [hk _ rfl rfl, if_neg Bool.false_ne_true]
  simp [TripSource.restarted, TripSource.configuredAnew, hq]

/-- The level that an operand byte names (Table 10-5). -/
theorem levelOf_of_le {b : Byte} (h : b.toNat ≤ 1) : levelOf b = some (if b = 0 then .low else .high) := by
  unfold levelOf
  by_cases h0 : b = 0
  · rw [if_pos h0, if_pos h0]
  · have h1 : b = 1 := by
      have hn : b.toNat ≠ 0 := fun c => h0 (BitVec.eq_of_toNat_eq c)
      exact BitVec.eq_of_toNat_eq (show b.toNat = 1 by omega)
    rw [if_neg h0, if_neg h0, if_pos h1]

/-- The source that a TRIP_CONFIG leaves: refused while it is not QUIET, else configured (R137, R164). -/
theorem State.serveSettled_tripConfig (u : State) (i : TripInput) (tag : Byte) {al k : Byte} (g : LaneGroup)
    (hal : al.toNat ≤ 1) (hk : 1 ≤ k.toNat ∧ k.toNat ≤ 15) :
    (u.serveSettled (.tripConfig tag (if i = .a then 0 else 1) 1 al k g)).1.trip i =
      if (u.trip i).state = .quiet then
        (u.trip i).configure true (if al = 0 then .low else .high) k.toNat g
      else u.trip i := by
  have hi : tripInputOf (if i = .a then 0 else 1) = some i := by cases i <;> rfl
  have hy : yesNoOf 1 = some true := rfl
  have hd : depthOf k = some k.toNat := if_pos hk
  have ht : u.settle.trip i = u.trip i := by
    obtain ⟨-, ⟨ha, hb, -⟩, -⟩ := u.settle_outside
    cases i
    · exact ha
    · exact hb
  simp only [State.serveSettled, serve, reqTripConfig, hi, hy, levelOf_of_le hal, hd, Option.getD_some, ne_eq, ht]
  by_cases hq : (u.trip i).state = .quiet <;> simp [hq, ht]

/-! ### The edge -/

/-- An edge on `s` on which the execution of a TRIP_CONFIG ends that restarts the filter of source `i`, some of its parts taken:
once it has ended the source is configured anew, with the samples of the edge discarded, unless its trip was taken before
(R137). -/
def State.TripConfigEdge (s : State) (i : TripInput) (level : Level) (k : Nat) (g : LaneGroup)
    (_counted sampled ended : Bool) (w : EdgeWork) : Prop :=
  if ended = true then
    (sampled = false → w.restarted.contains i = true) ∧
      (w.state.trip i = .configuredAnew level k g ∨ (s.trip i).CompletesActive (s.tripPin i) ∧
        w.state.trip i = { s.trip i with inputState := .active, runLength := 0, state := .held })
  else
    w.overtaken = [] ∧ w.restarted = [] ∧ w.state.link = s.link ∧ w.state.pins = s.pins ∧
      w.state.trip i = if sampled = true then (s.trip i).atEdge (s.tripPin i) else s.trip i

section TripConfig

variable {s : State} {i : TripInput} {tag al k : Byte} {g : LaneGroup} {level : Level} {n : Nat} {w : EdgeWork} {a b c : Bool}

theorem State.TripConfigEdge.takeTimebase (h : s.TripConfigEdge i level n g false b c w) (tickOrder : List TickUnit) :
    s.TripConfigEdge i level n g true b c (w.take tickOrder .timebase) := by
  have htrip := w.state.clkTimebase_trip tickOrder i
  cases c
  · obtain ⟨ho, hr, hl, hp, ht⟩ := h
    rw [EdgeWork.take_of_not_overtaken (by rw [ho]; rfl)]
    exact ⟨by rw [ho]; rfl, by rw [hr]; rfl, (w.state.clkTimebase_link tickOrder).trans hl,
      (w.state.clkTimebase_pins tickOrder).trans hp, htrip.trans ht⟩
  · obtain ⟨hr, ht⟩ := h
    cases hT : w.overtaken.contains .timebase
    · rw [EdgeWork.take_of_not_overtaken hT]
      refine ⟨fun hb => by simpa using Or.inl (hr hb), ?_⟩
      dsimp only [State.clkUnit]
      rwa [htrip]
    · rw [EdgeWork.take_of_overtaken hT]
      exact ⟨hr, ht⟩

/-- A filter that has restarted on the edge takes no sample of it (R137). -/
theorem State.TripConfigEdge.takeSamples (he : s.EndsExecutionOf (.tripConfig tag (if i = .a then 0 else 1) 1 al k g))
    (h : s.TripConfigEdge i level n g a false c w) (tickOrder : List TickUnit) :
    s.TripConfigEdge i level n g a true c (w.take tickOrder .tripSamples) := by
  obtain ⟨-, hp', htrip, -⟩ := w.state.clkTrips_frame w.restarted
  cases c
  · obtain ⟨ho, hr, hl, hp, ht⟩ := h
    obtain ⟨-, -, hwait, -⟩ := he
    have hn : w.state.tripEndsHere = none := State.tripEndsHere_of_no_trip fun _ _ c => by simp [hl, hwait] at c
    have hpin : w.state.tripPin i = s.tripPin i := by cases i <;> simp only [State.tripPin, hp]
    rw [EdgeWork.take_of_not_overtaken (by rw [ho]; rfl)]
    have hsample : (w.state.clkTrips w.restarted).trip i = (s.trip i).atEdge (s.tripPin i) := by
      rw [htrip, hr, State.sourceAtEdge_nil, ht, hpin]
      rfl
    exact ⟨by simp [ho, State.overtaken, hn], by rw [hr]; rfl, ((State.clkTrips_of_none hn).2.1 _).trans hl,
      hp'.trans hp, hsample⟩
  · obtain ⟨hr, ht⟩ := h
    have hstays : (w.state.clkTrips w.restarted).trip i = w.state.trip i :=
      (htrip i).trans (if_pos (hr rfl))
    cases hS : w.overtaken.contains .tripSamples
    · rw [EdgeWork.take_of_not_overtaken hS]
      refine ⟨nofun, ?_⟩
      dsimp only [State.clkUnit]
      rwa [hstays]
    · rw [EdgeWork.take_of_overtaken hS]
      exact ⟨nofun, ht⟩

/-- The end of the TRIP_CONFIG's execution configures the source anew, unless the edge has tripped it before (R137, R164). -/
theorem State.TripConfigEdge.takeExecution (he : s.EndsExecutionOf (.tripConfig tag (if i = .a then 0 else 1) 1 al k g))
    (hal : al.toNat ≤ 1) (hk : 1 ≤ k.toNat ∧ k.toNat ≤ 15) (hq : (s.trip i).state = .quiet)
    (hnew : ¬ (s.trip i).SameFilter (if al = 0 then .low else .high) k.toNat)
    (h : s.TripConfigEdge i (if al = 0 then .low else .high) k.toNat g a b false w) (tickOrder : List TickUnit) :
    s.TripConfigEdge i (if al = 0 then .low else .high) k.toNat g a b true (w.take tickOrder .execution) := by
  obtain ⟨ho, -, hl, -, ht⟩ := h
  obtain ⟨-, -, hwait, hbound⟩ := he
  have hb : w.state.link.buffer = .executing (.waiting (.tripConfig tag (if i = .a then 0 else 1) 1 al k g)) := hl ▸ hwait
  have hage : 160 ≤ w.state.link.age + 1 := hl ▸ hbound
  have hn : w.state.tripEndsHere = none := State.tripEndsHere_of_no_trip fun _ _ c => by simp [hb] at c
  have hserve := w.state.serveSettled_tripConfig i tag g hal hk
  have hexec : w.state.clkExecution.trip i = _ :=
    (congrArg (fun u : State => u.trip i) (State.clkExecution_of_waiting hb hage)).trans hserve
  have hconf : (w.state.trip i).state = .quiet → ¬ (w.state.trip i).SameFilter (if al = 0 then .low else .high) k.toNat →
      w.state.clkExecution.trip i = .configuredAnew (if al = 0 then .low else .high) k.toNat g ∧
        w.state.restartsFilter i = true := fun hq' hnew' => by
    obtain ⟨hc, hkeep⟩ := TripSource.configure_of_restart hq' hnew' g
    rw [if_pos hq', hc] at hexec
    refine ⟨hexec, ?_⟩
    rw [State.restartsFilter, hexec, hkeep]
    rfl
  have hcontains : w.state.restartsFilter i = true →
      (w.restarted ++ w.state.restartedBy .execution).contains i = true := fun hf => by
    simp only [State.restartedBy, List.contains_iff_mem, List.mem_append, List.mem_filter, hf, and_true]
    exact .inr (by cases i <;> simp)
  rw [EdgeWork.take_of_not_overtaken (by rw [ho]; rfl)]
  have hunit : w.state.clkUnit tickOrder w.restarted .execution = w.state.clkExecution := by
    rw [State.clkUnit, hn, if_neg (by simp)]
  rw [hunit]
  cases b
  · obtain ⟨hc, hf⟩ := hconf (by rw [ht]; exact hq) (by rw [ht]; exact hnew)
    exact ⟨fun _ => hcontains hf, .inl hc⟩
  · have ht' : w.state.trip i = (s.trip i).atEdge (s.tripPin i) := ht
    refine ⟨nofun, ?_⟩
    rcases TripSource.atEdge_of_quiet hq (s.tripPin i) with ⟨hcomp, hheld⟩ | ⟨-, hquiet⟩
    · rw [ht', hheld, if_neg nofun] at hexec
      exact .inr ⟨hcomp, hexec⟩
    · obtain ⟨h1, h2, h3, -⟩ := (s.trip i).atEdge_config (s.tripPin i)
      refine .inl (hconf (by rw [ht']; exact hquiet) ?_).1
      rw [ht', TripSource.SameFilter, h1, h2, h3]
      exact hnew

/-- The step of a part on which the execution of a TRIP_CONFIG ends that restarts the filter of a QUIET source (R137). -/
theorem step_of_tripConfig (hpend : s.pending = [])
    (he : s.EndsExecutionOf (.tripConfig tag (if i = .a then 0 else 1) 1 al k g)) (hal : al.toNat ≤ 1)
    (hk : 1 ≤ k.toNat ∧ k.toNat ≤ 15) (hq : (s.trip i).state = .quiet)
    (hnew : ¬ (s.trip i).SameFilter (if al = 0 then .low else .high) k.toNat) :
    ∃ t : State, step s = .next t.edgeOver ∧
      (t.trip i = .configuredAnew (if al = 0 then .low else .high) k.toNat g ∨
        (s.trip i).CompletesActive (s.tripPin i) ∧
          t.trip i = { s.trip i with inputState := .active, runLength := 0, state := .held }) := by
  obtain ⟨w, ⟨-, hw⟩, hst⟩ := step_of_idle
    (P := s.TripConfigEdge i (if al = 0 then .low else .high) k.toNat g) hpend he.1 he.2.1 ⟨rfl, rfl, rfl, rfl, rfl⟩
    (fun tickOrder _ _ _ hw => hw.takeTimebase tickOrder) (fun tickOrder _ _ _ hw => hw.takeSamples he tickOrder)
    (fun tickOrder _ _ _ hw => hw.takeExecution he hal hk hq hnew tickOrder)
  exact ⟨w.state, hst, hw⟩

end TripConfig

/-! ### The statement -/

/-- TRIP_FILTER_SAMPLE at the level present on the pin leaves the source as an edge does (R128). -/
theorem exec_tripFilterSample_trip {s : State} (hr : s.inReset = false) (ht : s.TickWhole) (i : TripInput) :
    ∃ u, exec (.tripFilterSample i (s.tripPin i)) s = .next u ∧ u.trip i = (s.trip i).atEdge (s.tripPin i) := by
  refine ⟨s.sampleTripPin i (s.tripPin i), congrArg Host.Outcome.next ?_, ?_⟩
  · rw [State.whenRunning_of_running hr, State.settle_of_tickWhole ht]
  · obtain ⟨-, ⟨ha, hb, -⟩, -⟩ := State.takeTrips_outside
      ((s.setTripPin i (s.tripPin i)).setTrip i ((s.trip i).atEdge (s.tripPin i)))
      ((s.setTripPin i (s.tripPin i)).tripOf i ((s.trip i).atEdge (s.tripPin i)))
    cases i
    · exact ha
    · exact hb

/-- SOFT after a TRIP that it accepts, and the lanes newly in its group (R135). -/
theorem SoftSource.tripped_eq {r : SoftSource} (h : r.state ≠ .held) (g : LaneGroup) :
    r.tripped g = { group := (if r.state = .quiet then 0 else r.group) ||| g, state := .latched } ∧
      r.newly g = g &&& ~~~(if r.state = .quiet then 0 else r.group) := by
  have hall : g &&& ~~~(0 : LaneGroup) = g := BitVec.and_allOnes
  unfold SoftSource.tripped SoftSource.newly
  obtain ⟨group, state⟩ := r
  cases state
  · exact ⟨by simp, hall.symm⟩
  · exact absurd rfl h
  · exact ⟨rfl, rfl⟩

/-- Settles O2: on an empty queue the step is one edge, whose parts are followed in every order: from a steady part, and from
one on which the execution of a SET_TIME, a SET_DIVIDER, a TRIP or a TRIP_CONFIG ends. -/
theorem idleEdgeCountsTheTick : Obligations.IdleEdgeCountsTheTick := by
  unfold Obligations.IdleEdgeCountsTheTick
  intro s tag al k v m g i hq
  refine ⟨fun hr => ?_, fun h => ?_, fun he hs => ?_, fun he hs h1 h2 => ?_, fun he hg hheld => ?_,
    fun he hal h1 h2 hquiet hnew => ?_⟩
  · unfold step
    rw [hq]
    exact congrArg Host.Outcome.next (State.whenRunning_of_inReset hr _)
  · obtain ⟨t, hst, hlink, hsoft, hsam⟩ := step_of_steady hq h
    obtain ⟨u, hu, hui⟩ := exec_tripFilterSample_trip h.1 h.2.1 i
    refine ⟨t.edgeOver, hst, congrArg (· + 1) hsam.clkEdges, hsam.divider, hlink, hsoft,
      ⟨u, hu, (hsam.trip i).trans hui.symm⟩, hsam.trippedOnEdge, ?_⟩
    rw [← hsam.divider]
    exact hsam.tick.edgeOver
  · obtain ⟨t, hst, hnow, hphase, hdiv, hbuf⟩ := step_of_setTime hq he hs
    exact ⟨t.edgeOver, hst, hnow, hphase, (if_pos hphase).trans hdiv, hdiv, hbuf⟩
  · obtain ⟨t, hst, htick, hdiv, hbuf⟩ := step_of_setDivider hq he hs h1 h2
    refine ⟨t.edgeOver, hst, hdiv, hbuf, ?_⟩
    rw [← hdiv]
    exact htick.edgeOver
  · obtain ⟨t, hst, hsoft, hbuf, hsam⟩ := step_of_trip hq he hg
    obtain ⟨u, hu, hui⟩ := exec_tripFilterSample_trip he.1 he.2.1 i
    obtain ⟨hs, hn⟩ := SoftSource.tripped_eq hheld g
    rw [hs] at hsoft
    rw [hn] at hsam
    exact ⟨t.edgeOver, hst, hsoft, hbuf, ⟨u, hu, (hsam.trip i).trans hui.symm⟩, hsam.trippedOnEdge⟩
  · obtain ⟨t, hst, ht⟩ := step_of_tripConfig hq he hal ⟨h1, h2⟩ hquiet hnew
    refine ⟨t.edgeOver, hst, ht.imp id ?_⟩
    rintro ⟨⟨hen, -, hd, hp⟩, hheld⟩
    exact ⟨hen, hd, hp, hheld⟩

end Sys2Proof.Machine
end

section
/-! SUPPORT. What an event can do to the record of an entry: each write of a record keeps the laws of records (R15, R18, R24,
R30, R44, R115), and none but an acknowledgement, a release or a reset touches a DONE one (R29). -/

namespace Sys2Proof.Machine

/-! ### The laws of one record -/

/-- The laws of record `r` of entry `x`, the count of its cycles aside. -/
structure Entry.Sound (x : Fin 64) (r : Entry) : Prop where
  parts : r.PartsLawful
  programmes : r.state ≠ .free → r.prog.Lawful ∧ r.progWithStaged.Lawful
  link : r.successor ≠ some x

/-- A run with a count has not reached it (R44). -/
def Entry.Counted (r : Entry) : Prop :=
  r.state = .running ∨ r.state = .draining → r.prog.count ≠ 0 → r.cyclesDone.toNat < r.prog.count.toNat

/-- The law of entry records, record by record. -/
theorem State.entriesLawful_iff (s : State) :
    s.EntriesLawful ↔ ∀ e : Fin 64, (s.entry e).Sound e ∧ (s.entry e).Counted := by
  refine forall_congr' fun e => ⟨?_, ?_⟩
  · rintro ⟨hp, ⟨hv, hc⟩, hl⟩
    exact ⟨⟨hp, hv, hl⟩, hc⟩
  · rintro ⟨⟨hp, hv, hl⟩, hc⟩
    exact ⟨hp, ⟨hv, hc⟩, hl⟩

/-- A FREE record keeps the laws. -/
theorem Entry.free_sound (x : Fin 64) : Entry.free.Sound x := ⟨Entry.free_partsLawful, fun h => absurd rfl h, nofun⟩

/-- The laws bind the count of cycles in a run alone (R44). -/
theorem Entry.counted_of_not_run {r : Entry} (h1 : r.state ≠ .running) (h2 : r.state ≠ .draining) : r.Counted :=
  fun h => (h.elim h1 h2).elim

theorem Entry.free_counted : Entry.free.Counted := Entry.counted_of_not_run nofun nofun

theorem Entry.scheduled_iff (r : Entry) :
    r.scheduled = true ↔ r.state = .pending ∨ r.state = .running ∨ r.state = .draining := by
  simp [Entry.scheduled, or_assoc]

/-- The parts of a scheduled record (R15, R24, R30). -/
structure Entry.ScheduledParts (r : Entry) : Prop where
  staged : r.staged ≠ Staged.none → r.state = .running ∨ r.state = .draining
  held : r.heldTrigger ≠ none → r.state = .running ∧ ∃ n : Fin 8, r.start = some (.onTrigger n .every .holdOne)
  outcome : r.outcome = none
  retiredAt : r.retiredAt = none
  start : r.start ≠ none
  once : ∀ n : Fin 8, r.start ≠ some (.onTrigger n .once .restart) ∧ r.start ≠ some (.onTrigger n .once .holdOne)

theorem Entry.partsLawful_iff_of_scheduled {r : Entry} (h : r.scheduled = true) : r.PartsLawful ↔ r.ScheduledParts := by
  have hf : r.state ≠ .free := fun c => by simp [Entry.scheduled, c] at h
  have hi : r.state ≠ .idle := fun c => by simp [Entry.scheduled, c] at h
  have hd : r.state ≠ .done := fun c => by simp [Entry.scheduled, c] at h
  constructor
  · rintro ⟨-, -, h1, h2, h3, h4, h5, h6⟩
    exact ⟨h1, h2, by simpa [hd] using h3, by simpa [hd] using h4, by simpa [hf, hi] using h5, h6⟩
  · rintro ⟨h1, h2, h3, h4, h5, h6⟩
    exact ⟨fun c => absurd c hf, fun c => absurd c hi, h1, h2, by simp [h3, hd], by simp [h4, hd], by simp [h5, hf, hi], h6⟩

/-- A write of a scheduled record that leaves it scheduled keeps the laws where `staged`, `held trigger` and the programmes do,
and the start part, the outcome and the link to the successor are as they were. -/
theorem Entry.Sound.write {x : Fin 64} {r r' : Entry} (h : r.Sound x) (hr : r.scheduled = true) (hr' : r'.scheduled = true)
    (fate : r'.start = r.start ∧ r'.outcome = r.outcome ∧ r'.retiredAt = r.retiredAt ∧ r'.successor = r.successor)
    (staged : r'.staged ≠ Staged.none → r'.state = .running ∨ r'.state = .draining)
    (held : r'.heldTrigger ≠ none → r'.state = .running ∧ ∃ n : Fin 8, r.start = some (.onTrigger n .every .holdOne))
    (prog : r'.prog.Lawful ∧ r'.progWithStaged.Lawful) : r'.Sound x := by
  obtain ⟨hs, ho, ha, hl⟩ := fate
  obtain ⟨-, -, h3, h4, h5, h6⟩ := (Entry.partsLawful_iff_of_scheduled hr).mp h.parts
  exact ⟨(Entry.partsLawful_iff_of_scheduled hr').mpr
    ⟨staged, hs ▸ held, ho.trans h3, ha.trans h4, hs ▸ h5, hs ▸ h6⟩, fun _ => prog, hl ▸ h.link⟩

/-- The programmes of a scheduled record are valid (R18). -/
theorem Entry.Sound.valid {x : Fin 64} {r : Entry} (h : r.Sound x) (hr : r.scheduled = true) :
    r.prog.Lawful ∧ r.progWithStaged.Lawful :=
  h.programmes fun c => by simp [Entry.scheduled, c] at hr

/-- What a write leaves of a record in its run: all but its counters, its instants, its flags and its held trigger. -/
def Entry.SameRun (r r' : Entry) : Prop :=
  (r'.state = r.state ∧ r'.prog = r.prog ∧ r'.staged = r.staged) ∧
    r'.start = r.start ∧ r'.outcome = r.outcome ∧ r'.retiredAt = r.retiredAt ∧ r'.successor = r.successor

/-- Such a write of a scheduled record keeps the laws, where a trigger newly held is that of a RUNNING HOLD_ONE entry (R92). -/
theorem Entry.Sound.sameRun {x : Fin 64} {r r' : Entry} (h : r.Sound x) (hr : r.scheduled = true) (hk : r.SameRun r')
    (held : r'.heldTrigger ≠ none → r.heldTrigger ≠ none ∨
      r.state = .running ∧ ∃ n : Fin 8, r.start = some (.onTrigger n .every .holdOne)) : r'.Sound x := by
  obtain ⟨⟨hst, hp, hg⟩, fate⟩ := hk
  have hparts := (Entry.partsLawful_iff_of_scheduled hr).mp h.parts
  refine h.write hr (by rwa [Entry.scheduled, hst]) fate (by rw [hg, hst]; exact hparts.staged)
    (fun c => by rw [hst]; exact (held c).elim hparts.held id) ?_
  rw [Entry.progWithStaged, hp, hg]
  exact h.valid hr

/-! ### What an event can do to a record -/

/-- What the events of the part, but for ACK, RELEASE and the resets, can do to the record of entry `x`: they keep its laws, and
touch a DONE one at the ends of its links alone (R29). -/
structure Entry.Evolves (x : Fin 64) (r r' : Entry) : Prop where
  sound : r.Sound x → r'.Sound x
  counted : r.Counted → r'.Counted
  done : r.state = .done → r' = { r with predecessor := r'.predecessor, successor := r'.successor }

namespace Entry.Evolves

variable {x : Fin 64} {r r' r'' : Entry}

theorem refl (x : Fin 64) (r : Entry) : r.Evolves x r := ⟨id, id, fun _ => rfl⟩

theorem trans (h : r.Evolves x r') (k : r'.Evolves x r'') : r.Evolves x r'' := by
  refine ⟨fun c => k.sound (h.sound c), fun c => k.counted (h.counted c), fun c => ?_⟩
  have hd := h.done c
  have hk := k.done (by rw [hd]; exact c)
  rw [hk, hd]

/-- A write of a scheduled record. -/
theorem of_scheduled (hr : r.scheduled = true) (hs : r.Sound x → r'.Sound x) (hc : r.Counted → r'.Counted) :
    r.Evolves x r' :=
  ⟨hs, hc, fun c => by simp [Entry.scheduled, c] at hr⟩

end Entry.Evolves

/-! ### The links -/

/-- The ends of a link removed (R27, R116). -/
theorem Entry.evolves_unlinked (x : Fin 64) (r : Entry) {p y : Option (Fin 64)} (hp : p = none ∨ p = r.predecessor)
    (hy : y = none ∨ y = r.successor) : r.Evolves x { r with predecessor := p, successor := y } := by
  have hnone : ∀ v : Entry, v.predecessor = none → v.successor = none → r = v →
      { r with predecessor := p, successor := y } = v := by
    rintro v h1 h2 rfl
    obtain rfl : p = r.predecessor := hp.elim (·.trans h1.symm) id
    obtain rfl : y = r.successor := hy.elim (·.trans h2.symm) id
    rfl
  refine ⟨fun h => ⟨?_, h.programmes, ?_⟩, id, fun _ => rfl⟩
  · obtain ⟨hfree, hidle, hrest⟩ := h.parts
    exact ⟨fun c => hnone _ rfl rfl (hfree c), fun c => hnone _ rfl rfl (hidle c), hrest⟩
  · rcases hy with c | c
    · rw [c]; exact nofun
    · rw [c]; exact h.link

section Writes

variable {x : Fin 64} {r : Entry}

/-- A link to a successor is made at a scheduled record, to another entry (R115, R116). -/
theorem Entry.evolves_linked {y : Fin 64} (hr : r.scheduled = true) (hy : y ≠ x) :
    r.Evolves x { r with successor := some y } := by
  refine .of_scheduled hr (fun h => ⟨?_, h.programmes, fun c => hy (Option.some.inj c)⟩) id
  obtain ⟨h1, h2, h3, h4, h5, h6⟩ := (Entry.partsLawful_iff_of_scheduled hr).mp h.parts
  exact (Entry.partsLawful_iff_of_scheduled (r := { r with successor := some y }) hr).mpr ⟨h1, h2, h3, h4, h5, h6⟩

/-! ### The writes of a run -/

/-- A write of counters, instants and flags, and of `held trigger` where it is removed. -/
theorem Entry.evolves_sameRun {r' : Entry} (hr : r.scheduled = true) (hk : r.SameRun r')
    (held : r'.heldTrigger = none ∨ r'.heldTrigger = r.heldTrigger) (hc : r'.cyclesDone = r.cyclesDone) :
    r.Evolves x r' := by
  refine .of_scheduled hr (fun h => h.sameRun hr hk fun c => .inl ?_) ?_
  · exact held.elim (fun d => absurd d c) fun d => d ▸ c
  · unfold Entry.Counted
    rw [hc, hk.1.1, hk.1.2.1]
    exact id

theorem Entry.evolves_strobeMerged (hr : r.scheduled = true) : r.Evolves x r.strobeMerged :=
  Entry.evolves_sameRun hr ⟨⟨rfl, rfl, rfl⟩, rfl, rfl, rfl, rfl⟩ (.inr rfl) rfl

theorem Entry.evolves_missTrigger (hr : r.scheduled = true) : r.Evolves x r.missTrigger :=
  Entry.evolves_sameRun hr ⟨⟨rfl, rfl, rfl⟩, rfl, rfl, rfl, rfl⟩ (.inr rfl) rfl

theorem Entry.evolves_raiseSkew (hr : r.scheduled = true) (skew : Nat) : r.Evolves x (r.raiseSkew skew) :=
  Entry.evolves_sameRun hr ⟨⟨rfl, rfl, rfl⟩, rfl, rfl, rfl, rfl⟩ (.inr rfl) rfl

theorem Entry.evolves_atOffset (hr : r.scheduled = true) (o : Nat) : r.Evolves x (r.atOffset o) :=
  Entry.evolves_sameRun hr ⟨⟨rfl, rfl, rfl⟩, rfl, rfl, rfl, rfl⟩ (.inr rfl) rfl

/-- A trigger is held for a RUNNING HOLD_ONE entry (R92). -/
theorem Entry.evolves_hold {n : Fin 8} (hr : r.state = .running) (hs : r.start = some (.onTrigger n .every .holdOne))
    (stamp : Instant) : r.Evolves x { r with heldTrigger := some stamp } :=
  have h : r.scheduled = true := r.scheduled_iff.mpr (.inr (.inl hr))
  .of_scheduled h (fun c => c.sameRun h ⟨⟨rfl, rfl, rfl⟩, rfl, rfl, rfl, rfl⟩ fun _ => .inr ⟨hr, n, hs⟩) id

/-- A run begins with no cycle counted (R47). -/
theorem Entry.beginRun_counted (r : Entry) (start : Instant) : (r.beginRun start).Counted :=
  fun _ hn => Nat.pos_of_ne_zero fun c => hn (BitVec.eq_of_toNat_eq c)

theorem Entry.evolves_beginRun (hr : r.scheduled = true) (start : Instant) : r.Evolves x (r.beginRun start) := by
  refine .of_scheduled hr (fun h => ?_) fun _ => r.beginRun_counted start
  have hparts := (Entry.partsLawful_iff_of_scheduled hr).mp h.parts
  exact h.write hr rfl ⟨rfl, rfl, rfl, rfl⟩ (fun _ => .inl rfl) (fun c => ⟨rfl, (hparts.held c).2⟩) (h.valid hr)

/-- The programme in force from the next START is taken (R45). -/
theorem Entry.evolves_takeStaged (hr : r.scheduled = true) : r.Evolves x r.takeStaged := by
  refine .of_scheduled hr (fun h => ?_) id
  have hparts := (Entry.partsLawful_iff_of_scheduled hr).mp h.parts
  have hv : r.takeStaged.prog.Lawful := (h.valid hr).2
  exact h.write hr hr ⟨rfl, rfl, rfl, rfl⟩ (fun c => absurd rfl c) hparts.held ⟨hv, hv⟩

theorem Entry.evolves_takeStart (hr : r.scheduled = true) : r.Evolves x r.takeStart :=
  (Entry.evolves_takeStaged hr).trans (Entry.evolves_atOffset (r := r.takeStaged) hr 0)

/-- The record of a START taken with its skew (R43, R45, R48). -/
theorem Entry.evolves_actStart (hr : r.scheduled = true) (skew : Nat) : r.Evolves x (r.takeStart.raiseSkew skew) :=
  (Entry.evolves_takeStart hr).trans (Entry.evolves_raiseSkew (r := r.takeStart) hr skew)

/-- The cycles counted at the end of one that does not end the run (R44). -/
theorem Entry.countCycle_counted (h : r.endsRun = false) : r.countCycle.Counted := by
  unfold Entry.endsRun at h
  simp only [Bool.or_eq_false_iff, Bool.and_eq_false_iff, decide_eq_false_iff_not, not_le] at h
  intro _ (hn : r.prog.count ≠ 0)
  exact h.2.resolve_left (by simpa using hn)

/-- The END of a cycle counted, with the START of the next at `t` (R43, R44). -/
theorem Entry.evolves_newCycle (hr : r.scheduled = true) (he : r.endsRun = false) (t : Instant) (skew : Nat) :
    r.Evolves x ((({ r.countCycle with cycleStart := t }).takeStart).raiseSkew skew) := by
  have h : r.Evolves x { r.countCycle with cycleStart := t } :=
    .of_scheduled hr (fun c => c.sameRun hr ⟨⟨rfl, rfl, rfl⟩, rfl, rfl, rfl, rfl⟩ .inl)
      fun _ => Entry.countCycle_counted he
  exact h.trans (Entry.evolves_actStart (r := { r.countCycle with cycleStart := t }) hr skew)

/-- The record that a final action leaves before what follows the run keeps the laws, the count of its cycles aside (R43). -/
theorem Entry.Sound.endOfRun (h : r.Sound x) (hr : r.scheduled = true) (t : Instant) (skew : Nat) :
    (r.endOfRun t skew).Sound x :=
  h.sameRun hr ⟨⟨rfl, rfl, rfl⟩, rfl, rfl, rfl, rfl⟩ .inl

/-- An entry without a held trigger returns to PENDING (R51). -/
theorem Entry.evolves_returnToPending (hr : r.scheduled = true) (hh : r.heldTrigger = none) :
    r.Evolves x { r.takeStaged with state := .pending } := by
  refine .of_scheduled hr (fun h => ?_) fun _ => Entry.counted_of_not_run nofun nofun
  have hv : r.takeStaged.prog.Lawful := (h.valid hr).2
  exact h.write hr rfl ⟨rfl, rfl, rfl, rfl⟩ (fun c => absurd rfl c) (fun c => absurd hh c) ⟨hv, hv⟩

/-- A scheduled entry retires with its optional parts cleared (R27). -/
theorem Entry.evolves_retired (hr : r.scheduled = true) (oc : EntryOutcome) (t : Instant) : r.Evolves x (r.retired oc t) := by
  refine .of_scheduled hr (fun h => ?_) fun _ => Entry.counted_of_not_run nofun nofun
  have hparts := (Entry.partsLawful_iff_of_scheduled hr).mp h.parts
  have hrec : ({ r.retired oc t with successor := none } : Entry) = _ := r.retired_as oc t
  obtain ⟨hp, hs, hl⟩ := r.retired_kept oc t
  have hg : (r.retired oc t).staged = Staged.none := congrArg Entry.staged hrec
  have hh : (r.retired oc t).heldTrigger = none := congrArg Entry.heldTrigger hrec
  refine ⟨⟨nofun, nofun, fun c => absurd hg c, fun c => absurd hh c, ⟨fun _ => rfl, fun _ => nofun⟩,
    ⟨fun _ => rfl, fun _ => nofun⟩, ⟨fun c => absurd (hs ▸ c) hparts.start, nofun⟩, hs ▸ hparts.once⟩,
    fun _ => ?_, hl ▸ h.link⟩
  rw [Entry.progWithStaged, hp, hg]
  exact ⟨(h.valid hr).1, (h.valid hr).1⟩

end Writes

end Sys2Proof.Machine
end

section
/-! SUPPORT. What retirements, the running of entries, the walk, the dispatch and the trips do to the records of the entries. -/

namespace Sys2Proof.Machine

/-! ### Records that evolve -/

/-- Every record evolves. -/
def State.Evolves (s t : State) : Prop := ∀ x : Fin 64, (s.entry x).Evolves x (t.entry x)

namespace State.Evolves

variable {s t u : State}

theorem refl (s : State) : s.Evolves s := fun x => .refl x _

theorem trans (h : s.Evolves t) (k : t.Evolves u) : s.Evolves u := fun x => (h x).trans (k x)

theorem of_entries (h : t.entries = s.entries) : s.Evolves t := fun x => by
  rw [State.entry, State.entry, h]
  exact .refl x _

theorem ite {c : Prop} [Decidable c] (ht : s.Evolves t) (hu : s.Evolves u) : s.Evolves (if c then t else u) := by
  split
  · exact ht
  · exact hu

/-- Records that evolve keep their law. -/
theorem lawful (h : s.Evolves t) (hs : s.EntriesLawful) : t.EntriesLawful :=
  t.entriesLawful_iff.mpr fun x =>
    have hx := s.entriesLawful_iff.mp hs x
    ⟨(h x).sound hx.1, (h x).counted hx.2⟩

end State.Evolves

theorem State.setEntry_evolves {s : State} {e : Fin 64} {r : Entry} (h : (s.entry e).Evolves e r) :
    s.Evolves (s.setEntry e r) := fun x => by
  rw [s.entry_setEntry]
  split
  · next hx => exact hx ▸ h
  · exact .refl x _

theorem State.setLine_evolves (s : State) (n : Fin 8) (r : TriggerLine) : s.Evolves (s.setLine n r) := .of_entries rfl

theorem State.setDispatch_evolves (s : State) (d : Option DispatchWork) : s.Evolves (s.setDispatch d) := .of_entries rfl

theorem State.setTrg_evolves (s : State) (n : Fin 8) (level : Level) : s.Evolves (s.setTrg n level) := .of_entries rfl

/-! ### Retirement -/

theorem State.unlinkPredecessor_evolves (s : State) (e : Fin 64) : s.Evolves (s.unlinkPredecessor e) := fun x => by
  rw [s.unlinkPredecessor_entry]
  refine Entry.evolves_unlinked x _ (.inr rfl) ?_
  split
  · exact .inl rfl
  · exact .inr rfl

theorem State.unlink_evolves (s : State) (p y : Fin 64) : s.Evolves (s.unlink p y) := fun x => by
  rw [s.unlink_entry]
  refine Entry.evolves_unlinked x _ ?_ ?_ <;> split
  · exact .inl rfl
  · exact .inr rfl
  · exact .inl rfl
  · exact .inr rfl

theorem State.retireOne_evolves (s : State) (e : Fin 64) (oc : EntryOutcome) (taker : Option (Fin 64)) :
    s.Evolves (s.retireOne e oc taker) := fun x => by
  have hu := s.unlinkPredecessor_evolves e
  by_cases h : (s.entry e).scheduled = true
  · by_cases hx : x = e
    · subst hx
      rw [s.retireOne_entry_self oc taker h]
      refine (hu x).trans (Entry.evolves_retired ?_ oc _)
      rw [s.unlinkPredecessor_entry]
      exact h
    · rw [s.retireOne_entry_ne oc taker hx, if_pos h]
      exact hu x
  · rw [s.retireOne_of_not_scheduled oc taker (by simpa using h)]
    exact .refl x _

theorem State.breakFrom_evolves (k : Nat) (s : State) (y : Option (Fin 64)) : s.Evolves (s.breakFrom k y) := by
  induction k generalizing s y with
  | zero => exact .refl s
  | succ k ih =>
    rcases y with _ | y
    · exact .refl s
    · unfold State.breakFrom
      split
      · exact ((s.retireOne_evolves _ _ _).trans (State.unlink_evolves _ _ _)).trans (ih _ _)
      · exact s.retireOne_evolves _ _ _

theorem State.breakBehind_evolves (s : State) (e : Fin 64) : s.Evolves (s.breakBehind e) := by
  unfold State.breakBehind
  split
  · exact (s.unlink_evolves _ _).trans (State.breakFrom_evolves _ _ _)
  · exact .refl s

theorem State.retireBroken_evolves (s : State) (e : Fin 64) (oc : EntryOutcome) : s.Evolves (s.retireBroken e oc) :=
  .ite ((s.retireOne_evolves _ _ _).trans (State.breakBehind_evolves _ _)) (.refl s)

/-- The trips of one event retire entries and break chains (R131, R132). -/
theorem State.takeTrips_evolves (s : State) (trips : List Trip) : s.Evolves (s.takeTrips trips) := by
  obtain ⟨ls, hls⟩ := State.laneSteps_eq trips s
  have hl : s.Evolves (trips.foldl State.laneStep s) := .of_entries (by rw [hls])
  unfold State.takeTrips State.entryStep
  exact List.foldlRecOn _ _
    (List.foldlRecOn _ _ hl fun t ht e _ => ht.trans (t.retireOne_evolves e _ _)) fun t ht e _ =>
      ht.trans (t.breakBehind_evolves e)

/-! ### Running -/

theorem State.removeDue_evolves (s : State) (e : Fin 64) : s.Evolves (s.removeDue e) := .of_entries rfl

theorem State.insertItem_evolves (s : State) (e : Fin 64) : s.Evolves (s.insertItem e) :=
  .ite ((s.removeDue_evolves e).trans (State.retireBroken_evolves _ _ _)) (.of_entries rfl)

@[simp] theorem State.handLevel_entry (s : State) (e : Fin 64) (c : Call) (x : Fin 64) :
    (s.handLevel e c).entry x = s.entry x := by
  obtain ⟨ls, h⟩ := s.handLevel_eq e c
  rw [h]
  rfl

theorem State.handLevel_evolves (s : State) (e : Fin 64) (c : Call) : s.Evolves (s.handLevel e c) := fun x => by
  rw [s.handLevel_entry]
  exact .refl x _

/-- A strobe request of a scheduled entry sets a flag at most (R111). -/
theorem State.serveStrobe_evolves {s : State} {e : Fin 64} (h : (s.entry e).scheduled = true) (served : Bool) :
    s.Evolves (s.serveStrobe e served) := fun x => by
  rw [s.serveStrobe_entry]
  split
  · next hx =>
    rw [hx.1]
    exact Entry.evolves_strobeMerged h
  · exact .refl x _

/-- The level, the strobe request and the item of a scheduled entry follow its instants (R43, R49). -/
theorem State.follow_evolves {s : State} {e : Fin 64} (h : (s.entry e).scheduled = true) (served : Bool) :
    s.Evolves (s.follow e served) := by
  refine ((s.handLevel_evolves _ _).trans (State.serveStrobe_evolves ?_ _)).trans (State.insertItem_evolves _ _)
  rwa [State.handLevel_entry]

/-- A scheduled entry is written, and the rest follows: the shape of every start and action. -/
theorem State.setEntry_follow_evolves {s : State} {e : Fin 64} {r : Entry} (h : (s.entry e).Evolves e r)
    (hr : r.scheduled = true) (served : Bool) : s.Evolves ((s.setEntry e r).follow e served) :=
  (State.setEntry_evolves h).trans (State.follow_evolves (by rwa [State.entry_setEntry_self]) served)

theorem State.startInEvent_evolves {s : State} {e : Fin 64} (h : (s.entry e).scheduled = true) (start : Instant)
    (unserved : Bool) : s.Evolves (s.startInEvent e start unserved) :=
  State.setEntry_follow_evolves ((Entry.evolves_beginRun h start).trans (Entry.evolves_takeStart rfl)) rfl _

theorem State.startSuccessor_evolves (s : State) (p y : Fin 64) (start : Instant) :
    s.Evolves (s.startSuccessor p y start) := by
  unfold State.startSuccessor
  dsimp only
  split
  · next h => exact (s.unlink_evolves p y).trans (State.startInEvent_evolves (Entry.scheduled_iff _ |>.mpr (.inl h)) _ _)
  · exact s.unlink_evolves p y

theorem State.retireWell_evolves (s : State) (e : Fin 64) (oc : EntryOutcome) (start : Instant) :
    s.Evolves (s.retireWell e oc start) := by
  unfold State.retireWell
  split
  · exact (s.retireOne_evolves _ _ _).trans (State.startSuccessor_evolves _ _ _ _)
  · exact s.retireOne_evolves _ _ _

/-! ### The end of a run -/

/-- A scheduled entry that retires has no cycle left to count (R44). -/
theorem State.retireWell_counted {s : State} {e : Fin 64} (h : (s.entry e).scheduled = true) (oc : EntryOutcome)
    (start : Instant) : ((s.retireWell e oc start).entry e).Counted := by
  have hone : ∀ taker, ((s.retireOne e oc taker).entry e).Counted := fun taker => by
    have hd : ((s.retireOne e oc taker).entry e).state = .done := (Entry.retiredAs_kept (s.retireOne_retiredAs oc taker h)).1
    exact Entry.counted_of_not_run (by simp [hd]) (by simp [hd])
  unfold State.retireWell
  split
  · exact (State.startSuccessor_evolves _ _ _ _ e).counted (hone _)
  · exact hone _

/-- A run begun in an event has no cycle counted (R47). -/
theorem State.startInEvent_counted (s : State) (e : Fin 64) (start : Instant) (unserved : Bool) :
    ((s.startInEvent e start unserved).entry e).Counted := by
  unfold State.startInEvent
  dsimp only
  have hr : (((s.entry e).beginRun start).takeStart).Counted :=
    (Entry.evolves_takeStart (x := e) (r := (s.entry e).beginRun start) rfl).counted ((s.entry e).beginRun_counted start)
  have hs : (((s.entry e).beginRun start).takeStart).scheduled = true := rfl
  generalize ((s.entry e).beginRun start).takeStart = r at hr hs ⊢
  refine (State.follow_evolves (s := s.setEntry e r) ?_ _ e).counted ?_ <;> rwa [State.entry_setEntry_self]

/-- What follows a run: the record evolves, and no cycle of that run is left to count (R44, section 3.5). -/
theorem State.afterRun_evolves {s : State} {e : Fin 64} (h : (s.entry e).scheduled = true) (t : Instant) (served : Bool) :
    s.Evolves (s.afterRun e t served) ∧ ((s.afterRun e t served).entry e).Counted := by
  unfold State.afterRun
  dsimp only
  split
  · exact ⟨s.retireWell_evolves _ _ _, State.retireWell_counted h _ _⟩
  · split
    · next hh =>
      refine ⟨(State.setEntry_evolves (Entry.evolves_returnToPending h hh)).trans (State.handLevel_evolves _ _ _), ?_⟩
      unfold State.returnToPending
      rw [State.handLevel_entry, State.entry_setEntry_self]
      exact Entry.counted_of_not_run nofun nofun
    · refine ⟨(State.setEntry_evolves ?_).trans (State.startInEvent_evolves ?_ _ _), State.startInEvent_counted _ _ _ _⟩
      · exact Entry.evolves_sameRun h ⟨⟨rfl, rfl, rfl⟩, rfl, rfl, rfl, rfl⟩ (.inl rfl) rfl
      · rwa [State.entry_setEntry_self]
    · exact ⟨s.retireWell_evolves _ _ _, State.retireWell_counted h _ _⟩

/-- The final action of a run: the count of its cycles, which may have reached N, goes with it (R43, R44). -/
theorem State.actFinal_evolves {s : State} {e : Fin 64} (h : (s.entry e).scheduled = true) (t : Instant) :
    s.Evolves (s.actFinal e (s.entry e) t) := by
  unfold State.actFinal
  dsimp only
  have hend : (s.setEntry e ((s.entry e).endOfRun t (skewOf s.now t))).entry e = _ := State.entry_setEntry_self _ _ _
  have hother : ∀ x, x ≠ e → (s.setEntry e ((s.entry e).endOfRun t (skewOf s.now t))).entry x = s.entry x :=
    fun x hx => State.entry_setEntry_ne _ _ hx
  generalize s.setEntry e ((s.entry e).endOfRun t (skewOf s.now t)) = u at hend hother ⊢
  have hu : (u.entry e).scheduled = true := by rw [hend]; exact h
  have hstrobe := State.serveStrobe_evolves hu ((s.entry e).serves (s.entry e).prog.endAt false)
  have hv : ((u.serveStrobe e ((s.entry e).serves (s.entry e).prog.endAt false)).entry e).scheduled = true := by
    rw [State.serveStrobe_entry]
    split
    · exact hu
    · exact hu
  obtain ⟨hrest, hcounted⟩ := State.afterRun_evolves hv t ((s.entry e).serves (s.entry e).prog.endAt false)
  intro x
  have hx := (hstrobe x).trans (hrest x)
  by_cases hxe : x = e
  · subst hxe
    exact .of_scheduled h (fun c => hx.sound (by rw [hend]; exact c.endOfRun h _ _)) fun _ => hcounted
  · rwa [hother x hxe] at hx

/-! ### The action (R43) -/

theorem State.actRunning_evolves {s : State} {e : Fin 64} (h : (s.entry e).scheduled = true) (t : Instant) :
    s.Evolves (s.actRunning e t) := by
  unfold State.actRunning
  dsimp only
  split
  · exact State.setEntry_follow_evolves (Entry.evolves_actStart h _) h _
  · split
    · split
      · exact State.actFinal_evolves h t
      · next he => exact State.setEntry_follow_evolves (Entry.evolves_newCycle h (by simpa using he) t _) h _
    · exact State.setEntry_follow_evolves
        ((Entry.evolves_atOffset h _).trans (Entry.evolves_raiseSkew (r := (s.entry e).atOffset _) h _)) h _

theorem State.takeAction_evolves (s : State) (e : Fin 64) (t : Instant) : s.Evolves (s.takeAction e t) := by
  refine (s.removeDue_evolves e).trans ?_
  unfold State.takeAction
  dsimp only
  split
  · next h =>
    exact State.setEntry_follow_evolves ((Entry.evolves_beginRun (Entry.scheduled_iff _ |>.mpr (.inl h)) t).trans
      (Entry.evolves_actStart rfl _)) rfl _
  · next h => exact State.actRunning_evolves (Entry.scheduled_iff _ |>.mpr (.inr (.inl h))) t
  · next h => exact State.actRunning_evolves (Entry.scheduled_iff _ |>.mpr (.inr (.inr h))) t
  · exact .refl _
  · exact .refl _
  · exact .refl _

/-! ### The walk (R88 to R92) -/

theorem State.triggerStart_evolves {s : State} {e : Fin 64} (h : (s.entry e).scheduled = true) (n : Fin 8) (mode : Mode)
    (stamp : Instant) : s.Evolves (s.triggerStart n e mode stamp) := by
  have hb := State.setEntry_evolves (Entry.evolves_beginRun h stamp)
  unfold State.triggerStart
  cases mode
  · exact (hb.trans (State.setLine_evolves _ _ _)).trans (State.insertItem_evolves _ _)
  · exact hb.trans (State.insertItem_evolves _ _)

theorem State.visit_evolves (s : State) (n : Fin 8) (stamp : Instant) (e : Fin 64) : s.Evolves (s.visit n stamp e) := by
  unfold State.visit
  split
  · next m mode policy hs =>
    split
    · next h => exact State.triggerStart_evolves (Entry.scheduled_iff _ |>.mpr (.inl h)) _ _ _
    · next h =>
      have hr := (Entry.scheduled_iff _).mpr (.inr (.inl h))
      cases policy
      · exact State.setEntry_evolves (Entry.evolves_missTrigger hr)
      · exact State.startInEvent_evolves hr _ _
      · exact .ite (State.setEntry_evolves (Entry.evolves_missTrigger hr)) (State.setEntry_evolves (Entry.evolves_hold h hs stamp))
    · next h => exact State.setEntry_evolves (Entry.evolves_missTrigger (Entry.scheduled_iff _ |>.mpr (.inr (.inr h))))
    · exact .refl s
  · exact .refl s

theorem State.walk_evolves (s : State) (n : Fin 8) (stamp : Instant) : s.Evolves (s.walk n stamp) :=
  List.foldlRecOn _ _ (.refl s) fun t ht e _ => ht.trans (t.visit_evolves n stamp e)

/-! ### The tick event (R2, R70, R81) -/

theorem State.acceptChange_evolves (s : State) (n : Fin 8) (level : Level) : s.Evolves (s.acceptChange n level) :=
  .ite ((s.setLine_evolves _ _).trans (State.walk_evolves _ _ _)) (s.setLine_evolves _ _)

theorem State.filterSample_evolves (s : State) (n : Fin 8) (level : Level) : s.Evolves (s.filterSample n level) := by
  unfold State.filterSample
  dsimp only
  repeat' split
  · exact s.setLine_evolves _ _
  · exact s.setLine_evolves _ _
  · exact s.acceptChange_evolves _ _
  · exact s.setLine_evolves _ _

theorem State.takeSample_evolves (s : State) (n : Fin 8) (level : Level) : s.Evolves (s.takeSample n level) :=
  .ite ((s.setLine_evolves _ _).trans (State.filterSample_evolves _ _ _)) (.refl s)

theorem State.countdown_evolves (s : State) (k : Fin 4) : s.Evolves (s.countdown k) := .ite (.of_entries rfl) (.refl s)

theorem State.overrunOne_evolves (s : State) : s.Evolves s.overrunOne := by
  unfold State.overrunOne
  split
  · exact (s.removeDue_evolves _).trans (State.retireBroken_evolves _ _ _)
  · exact .refl s

theorem State.overrunStep_evolves (k : Nat) (s : State) : s.Evolves (s.overrunStep k) := by
  induction k generalizing s with
  | zero => exact .refl s
  | succ k ih => exact s.overrunOne_evolves.trans (ih _)

theorem State.actionOne_evolves (s : State) : s.Evolves s.actionOne := by
  unfold State.actionOne
  split
  · exact (s.setDispatch_evolves _).trans (State.takeAction_evolves _ _ _)
  · exact .refl s

theorem State.actionStep_evolves (k : Nat) (s : State) : s.Evolves (s.actionStep k) := by
  induction k generalizing s with
  | zero => exact .refl s
  | succ k ih => exact s.actionOne_evolves.trans (ih _)

/-- A part of a tick event (R2). -/
theorem State.takeUnit_evolves (s : State) (u : TickUnit) : s.Evolves (s.takeUnit u) := by
  cases u with
  | dispatch =>
    exact .ite (((s.overrunStep_evolves _).trans (State.actionStep_evolves _ _)).trans
      (State.setDispatch_evolves _ _)) (.refl s)
  | sample n => exact s.takeSample_evolves n _
  | countdown k => exact s.countdown_evolves k

theorem State.takeUnits_evolves (units : List TickUnit) (s : State) : s.Evolves (s.takeUnits units) :=
  List.foldlRecOn units State.takeUnit (.refl s) fun t ht u _ => ht.trans (t.takeUnit_evolves u)

theorem State.settle_evolves (s : State) : s.Evolves s.settle := by
  unfold State.settle
  exact State.takeUnits_evolves tickUnits s

/-- A tick event (R1, R2). -/
theorem State.tick_evolves (s : State) (levels : BitVec 8) (order : List TickUnit) : s.Evolves (s.tick levels order) := by
  unfold State.tick
  refine s.settle_evolves.trans (.trans ?_ (State.takeUnits_evolves order _))
  obtain ⟨ls, ks, h⟩ := s.settle.beginTick_eq levels
  exact .of_entries (by rw [h])

/-! ### The trip inputs (R128, R129) -/

theorem State.setTripPin_entries (s : State) (i : TripInput) (level : Level) : (s.setTripPin i level).entries = s.entries := by
  cases i <;> rfl

theorem State.changeSource_evolves (s : State) (i : TripInput) (r : TripSource) : s.Evolves (s.changeSource i r) :=
  .trans (.of_entries (s.setTrip_entries i r)) (State.takeTrips_evolves _ _)

theorem State.sampleTripPin_evolves (s : State) (i : TripInput) (level : Level) : s.Evolves (s.sampleTripPin i level) :=
  .trans (.of_entries (s.setTripPin_entries i level)) (State.changeSource_evolves _ _ _)

theorem State.tripReads_evolves (s : State) (i : TripInput) (read : InputState) : s.Evolves (s.tripReads i read) :=
  .ite ((s.settle_evolves.trans (.of_entries (State.setTripPin_entries _ i _))).trans (State.changeSource_evolves _ _ _))
    (.refl s)

end Sys2Proof.Machine
end

section
/-! SUPPORT. What the owner of a request does to the records of the entries: all but ACK, RELEASE and SOFT_RESET are the same
kind of event as a tick, and those three clear the records they name (R34, R35, R37). -/

namespace Sys2Proof.Machine

/-! ### The writes of the entry requests -/

section Writes

variable {x : Fin 64} {r : Entry}

/-- An IDLE record that holds a valid programme alone keeps the laws (R18, Table 2-1). -/
theorem Entry.idle_sound (x : Fin 64) {p : Programme} (hp : p.Lawful) :
    ({ Entry.free with state := .idle, prog := p } : Entry).Sound x := by
  refine ⟨⟨nofun, fun _ => rfl, ?_⟩, fun _ => ⟨hp, hp⟩, nofun⟩
  simp [Entry.free]

/-- A DEFINE writes a valid programme into a record that holds nothing else (R20, R21). -/
theorem Entry.evolves_define (hr : r.state = .free ∨ r.state = .idle) {p : Programme} (hp : p.valid = true) :
    r.Evolves x (r.define p) := by
  have hd : r.state ≠ .done := fun c => by simp [c] at hr
  refine ⟨fun h => ?_, fun _ => Entry.counted_of_not_run nofun nofun, fun c => absurd c hd⟩
  have hrec : r.define p = { Entry.free with state := .idle, prog := p } := by
    rcases hr with c | c
    · rw [h.parts.1 c]; rfl
    · rw [h.parts.2.1 c]; rfl
  rw [hrec]
  exact Entry.idle_sound x (p.valid_iff.mp hp)

/-- A start part never records a policy but IGNORE for ONCE (R24). -/
def Start.OnceIgnores (start : Start) : Prop :=
  ∀ n : Fin 8, start ≠ .onTrigger n .once .restart ∧ start ≠ .onTrigger n .once .holdOne

/-- What every SCHEDULE writes of an IDLE record, whatever its start kind (R22, R23). -/
theorem Entry.scheduleAt_kept (r : Entry) (start : Start) (now : Instant) :
    ((r.scheduleAt start now).state = .pending ∧ (r.scheduleAt start now).prog = r.prog ∧
        (r.scheduleAt start now).staged = r.staged ∧ (r.scheduleAt start now).heldTrigger = r.heldTrigger) ∧
      (r.scheduleAt start now).outcome = r.outcome ∧ (r.scheduleAt start now).retiredAt = r.retiredAt ∧
      (r.scheduleAt start now).successor = r.successor ∧
      ((r.scheduleAt start now).start = some start ∨ ∃ late, (r.scheduleAt start now).start = some (.atTime now late)) := by
  unfold Entry.scheduleAt
  repeat' split
  · exact ⟨⟨rfl, rfl, rfl, rfl⟩, rfl, rfl, rfl, .inr ⟨_, rfl⟩⟩
  · exact ⟨⟨rfl, rfl, rfl, rfl⟩, rfl, rfl, rfl, .inl rfl⟩
  · exact ⟨⟨rfl, rfl, rfl, rfl⟩, rfl, rfl, rfl, .inl rfl⟩
  · exact ⟨⟨rfl, rfl, rfl, rfl⟩, rfl, rfl, rfl, .inl rfl⟩

theorem Entry.evolves_scheduleAt (hr : r.state = .idle) {start : Start} (hs : start.OnceIgnores) (now : Instant) :
    r.Evolves x (r.scheduleAt start now) := by
  obtain ⟨⟨hst, hp, hg, hh⟩, ho, ha, hl, hstart⟩ := r.scheduleAt_kept start now
  refine ⟨fun h => ?_, fun _ => Entry.counted_of_not_run (by simp [hst]) (by simp [hst]), fun c => by simp [hr] at c⟩
  obtain ⟨-, -, h1, h2, h3, h4, -⟩ := h.parts
  refine ⟨(Entry.partsLawful_iff_of_scheduled (by simp [Entry.scheduled, hst])).mpr ⟨?_, ?_, ?_, ?_, ?_, ?_⟩, fun _ => ?_,
    hl ▸ h.link⟩
  · rw [hg]
    exact fun c => by simpa [hr] using h1 c
  · rw [hh]
    exact fun c => by simpa [hr] using h2 c
  · simpa [hr, ho] using h3
  · simpa [hr, ha] using h4
  · rcases hstart with c | ⟨late, c⟩ <;> simp [c]
  · rcases hstart with c | ⟨late, c⟩
    · rw [c]
      exact fun n => ⟨fun d => (hs n).1 (Option.some.inj d), fun d => (hs n).2 (Option.some.inj d)⟩
    · simp [c]
  · rw [Entry.progWithStaged, hp, hg]
    exact h.programmes (by simp [hr])

/-- An AMEND of a PENDING entry leaves a valid programme (R55). -/
theorem Entry.evolves_amendPending (hr : r.state = .pending) {p : Programme} (hp : p.valid = true) :
    r.Evolves x { r with prog := p } := by
  have hs : r.scheduled = true := r.scheduled_iff.mpr (.inl hr)
  have hv : p.Lawful := p.valid_iff.mp hp
  refine .of_scheduled hs (fun h => ?_) fun _ => Entry.counted_of_not_run (r := { r with prog := p }) ?_ ?_
  · have hparts := (Entry.partsLawful_iff_of_scheduled hs).mp h.parts
    have hnone : r.staged = Staged.none := by_contra fun c => by simpa [hr] using hparts.staged c
    refine h.write hs hs ⟨rfl, rfl, rfl, rfl⟩ hparts.staged hparts.held ⟨hv, ?_⟩
    simp only [Entry.progWithStaged, hnone]
    exact hv
  · exact fun (c : r.state = .running) => by simp [hr] at c
  · exact fun (c : r.state = .draining) => by simp [hr] at c

/-- An AMEND of a RUNNING entry leaves both programmes valid, and a count that the run has not reached (R56, R57). -/
theorem Entry.evolves_amendRunning (hr : r.state = .running) {a : Amendment} (hv : r.amendValid a = true) :
    r.Evolves x (r.amendRunning a) := by
  have hs : r.scheduled = true := r.scheduled_iff.mpr (.inr (.inl hr))
  refine .of_scheduled hs (fun h => ?_) fun hc => ?_
  · have hparts := (Entry.partsLawful_iff_of_scheduled hs).mp h.parts
    obtain ⟨h1, h2⟩ := Bool.and_eq_true_iff.mp hv
    exact h.write hs hs ⟨rfl, rfl, rfl, rfl⟩ (fun _ => .inl hr) hparts.held
      ⟨(Programme.valid_iff _).mp h1, (Programme.valid_iff _).mp h2⟩
  · have hold := hc (.inl hr)
    intro _ (hn : a.count.getD r.prog.count ≠ 0)
    change (r.shortened a).toNat < (a.count.getD r.prog.count).toNat
    unfold Entry.shortened
    cases hcount : a.count with
    | none => exact hold (by simpa [hcount] using hn)
    | some n =>
      have hn : n ≠ 0 := by simpa [hcount] using hn
      dsimp only [Option.getD_some]
      split
      · bv_omega
      · next hlt => exact Nat.lt_of_not_le fun c => hlt ⟨hn, c⟩

/-- A RUNNING entry becomes DRAINING without its held trigger (R59). -/
theorem Entry.evolves_drain (hr : r.state = .running) : r.Evolves x { r.discardHeld with state := .draining } := by
  have hs : r.scheduled = true := r.scheduled_iff.mpr (.inr (.inl hr))
  have hk : (r.discardHeld.prog = r.prog ∧ r.discardHeld.staged = r.staged ∧ r.discardHeld.cyclesDone = r.cyclesDone) ∧
      (r.discardHeld.start = r.start ∧ r.discardHeld.outcome = r.outcome ∧ r.discardHeld.retiredAt = r.retiredAt ∧
        r.discardHeld.successor = r.successor) ∧ r.discardHeld.heldTrigger = none := by
    unfold Entry.discardHeld
    split
    · exact ⟨⟨rfl, rfl, rfl⟩, ⟨rfl, rfl, rfl, rfl⟩, rfl⟩
    · next h => exact ⟨⟨rfl, rfl, rfl⟩, ⟨rfl, rfl, rfl, rfl⟩, by simpa using h⟩
  obtain ⟨⟨hp, hg, hd⟩, fate, hh⟩ := hk
  refine .of_scheduled hs (fun h => h.write hs rfl fate (fun _ => .inr rfl) (fun c => absurd hh c) ?_) fun hc _ => ?_
  · simp only [Entry.progWithStaged, hp, hg]
    exact h.valid hs
  · simp only [hp, hd]
    exact hc (.inl hr)

end Writes

/-! ### SCHEDULE and SCHEDULE_SET (R22, R124) -/

theorem State.claimLane_entries {s t : State} {e : Fin 64} {start : Start} (h : s.claimLane e start = .ok t) :
    t.entries = s.entries := by
  unfold State.claimLane at h
  repeat' split at h
  · rw [← Except.ok.inj h]
  · rw [← Except.ok.inj h]; rfl
  · cases h

/-- An IDLE entry is placed, behind a scheduled predecessor where it names one (R22, R25). -/
theorem State.place_evolves {s : State} {e : Fin 64} {start : Start} (hi : (s.entry e).state = .idle)
    (hs : start.OnceIgnores) (hp : ∀ p, start = .after p → p ≠ e ∧ (s.entry p).scheduled = true) :
    s.Evolves (s.place e start) := by
  unfold State.place
  refine (State.setEntry_evolves (Entry.evolves_scheduleAt hi hs s.now)).trans ?_
  unfold State.joinStructure
  split
  · exact State.insertItem_evolves _ _
  · exact State.setLine_evolves _ _ _
  · next p =>
    obtain ⟨hne, hsch⟩ := hp p rfl
    refine State.setEntry_evolves (Entry.evolves_linked ?_ hne.symm)
    rwa [State.entry_setEntry_ne _ _ hne]

/-- Start fields that record IGNORE for ONCE (R24). -/
def StartFields.OnceIgnores (f : StartFields) : Prop :=
  ∀ n : Fin 8, f ≠ .onTrigger n .once .restart ∧ f ≠ .onTrigger n .once .holdOne

theorem startFieldsOf_onceIgnores {kind : Byte} {b : StartBlock} {f : StartFields} (h : startFieldsOf kind b = some f) :
    f.OnceIgnores := by
  unfold startFieldsOf at h
  split at h
  · obtain ⟨late, -, rfl⟩ := Option.map_eq_some_iff.mp h
    exact fun _ => ⟨nofun, nofun⟩
  · split at h
    · obtain ⟨n, -, h⟩ := Option.bind_eq_some_iff.mp h
      obtain ⟨m, -, h⟩ := Option.bind_eq_some_iff.mp h
      obtain ⟨p, hp, rfl⟩ := Option.map_eq_some_iff.mp h
      cases m
      · obtain rfl := Option.some.inj hp
        exact fun _ => ⟨nofun, nofun⟩
      · exact fun _ => ⟨nofun, nofun⟩
    · split at h
      · exact Option.some.inj h ▸ fun _ => ⟨nofun, nofun⟩
      · cases h

/-- The start part resolved: it records IGNORE for ONCE, and names a scheduled predecessor that is another entry (R24, R115). -/
theorem State.resolveStart_ok {s : State} {e : Fin 64} {f : StartFields} {start : Start} (hf : f.OnceIgnores)
    (h : s.resolveStart e f = .ok start) :
    start.OnceIgnores ∧ ∀ p, start = .after p → p ≠ e ∧ (s.entry p).scheduled = true := by
  unfold State.resolveStart at h
  repeat' split at h
  · exact Except.ok.inj h ▸ ⟨fun _ => ⟨nofun, nofun⟩, nofun⟩
  · next n m r =>
    refine Except.ok.inj h ▸ ⟨fun k => ⟨fun c => ?_, fun c => ?_⟩, nofun⟩
    · cases c
      exact (hf n).1 rfl
    · cases c
      exact (hf n).2 rfl
  · next p _ hc =>
    refine Except.ok.inj h ▸ ⟨fun _ => ⟨nofun, nofun⟩, fun q hq => ?_⟩
    cases hq
    simp only [State.chainValid, Bool.and_eq_true, ne_eq] at hc
    exact ⟨of_decide_eq_true hc.1.1, hc.1.2⟩
  · cases h
  · cases h

theorem State.scheduleChecked_evolves {s t : State} {e : Fin 64} {f : StartFields} (hi : (s.entry e).state = .idle)
    (hf : f.OnceIgnores) (h : s.scheduleChecked e f = .ok t) : s.Evolves t := by
  unfold State.scheduleChecked at h
  split at h
  · cases h
  · next start hr =>
    obtain ⟨hs, hp⟩ := State.resolveStart_ok hf hr
    split at h
    · cases h
    · next u hu =>
      split at h
      · cases h
      · have he : ∀ x, u.entry x = s.entry x := fun x => by rw [State.entry, State.entry, State.claimLane_entries hu]
        rw [← Except.ok.inj h]
        refine .trans (.of_entries (State.claimLane_entries hu)) (State.place_evolves (by rwa [he]) hs ?_)
        simpa only [he] using hp

theorem State.scheduleMembers_evolves {f : StartFields} (hf : f.OnceIgnores) {members : List Byte} {k : Nat} {s t : State}
    (h : s.scheduleMembers f k members = .ok t) : s.Evolves t := by
  induction members generalizing s k with
  | nil => exact Except.ok.inj h ▸ .refl s
  | cons b rest ih =>
    unfold State.scheduleMembers State.scheduleMember at h
    split at h
    · next hb =>
      repeat' split at hb
      · cases hb
      · next hi => exact (State.scheduleChecked_evolves hi hf hb).trans (ih h)
      · cases hb
    · cases h

/-! ### The requests -/

/-- A request evolves the records where what it does to each entry it can name does. -/
theorem withEntry_evolves {b : Byte} {s : State} {f : Fin 64 → State × Answer} (hf : ∀ e, s.Evolves (f e).1) :
    s.Evolves (withEntry b s f).1 :=
  withEntry_ind (P := fun r => s.Evolves r.1) _ _ _ (.refl s) hf

theorem reqDefine_evolves (entry lane : Byte) (d w p : Ticks) (n : Count) (strobe notify : Byte) (s : State) :
    s.Evolves (reqDefine entry lane d w p n strobe notify s).1 := by
  refine withEntry_evolves fun e => ?_
  repeat' split
  · exact .refl s
  · next hr _ _ _ hp => exact State.setEntry_evolves (Entry.evolves_define hr hp)
  · exact .refl s
  · exact .refl s

theorem reqSchedule_evolves (entry kind : Byte) (block : StartBlock) (s : State) :
    s.Evolves (reqSchedule entry kind block s).1 := by
  refine withEntry_evolves fun e => ?_
  repeat' split
  · exact .refl s
  · next hi _ _ hf _ _ h => exact State.scheduleChecked_evolves hi (startFieldsOf_onceIgnores hf) h
  · exact .refl s
  · exact .refl s

theorem reqScheduleSet_evolves (count kind : Byte) (block : StartBlock) (members : List Byte) (s : State) :
    s.Evolves (reqScheduleSet count kind block members s).1 := by
  unfold reqScheduleSet
  repeat' split
  · exact .refl s
  · exact .refl s
  · exact .refl s
  · next hf _ _ h =>
    exact State.scheduleMembers_evolves (startFieldsOf_onceIgnores (Option.filter_eq_some_iff.mp hf).1) h
  · exact .refl s

theorem reqAmend_evolves (entry mask : Byte) (d w p : Ticks) (n : Count) (s : State) :
    s.Evolves (reqAmend entry mask d w p n s).1 := by
  refine withEntry_evolves fun e => ?_
  dsimp only
  repeat' split
  · exact .refl s
  · exact .refl s
  · next hr _ _ hv => exact State.setEntry_evolves (Entry.evolves_amendPending hr hv)
  · exact .refl s
  · exact .refl s
  · exact .refl s
  · exact .refl s
  · next hr _ _ _ hv => exact State.setEntry_evolves (Entry.evolves_amendRunning hr hv)
  · exact .refl s
  · exact .refl s

theorem reqDrain_evolves (entry : Byte) (s : State) : s.Evolves (reqDrain entry s).1 := by
  refine withEntry_evolves fun e => ?_
  dsimp only
  repeat' split
  · next hr => exact State.setEntry_evolves (Entry.evolves_drain hr)
  · exact s.retireWell_evolves _ _ _
  · exact .refl s

theorem reqCancel_evolves (entry : Byte) (s : State) : s.Evolves (reqCancel entry s).1 :=
  withEntry_evolves fun _ => by
    split
    · exact s.retireBroken_evolves _ _
    · exact .refl s

theorem reqTrip_evolves (g : LaneGroup) (s : State) : s.Evolves (reqTrip g s).1 := by
  unfold reqTrip
  split
  · exact .refl s
  · exact State.takeTrips_evolves (s.setSoft (s.soft.tripped g)) _

theorem State.releaseTrip_entries (s : State) (src : TripId) : (s.releaseTrip src).entries = s.entries := by
  obtain ⟨ls, h⟩ := s.releaseTrip_eq src
  rw [h]

theorem State.clearSource_entries (s : State) (src : TripId) : (s.clearSource src).entries = s.entries := by
  cases src <;> exact State.releaseTrip_entries _ _

/-- The request works on the records of entries. -/
def worksOnEntries : Instr → Bool
  | .define .. | .schedule .. | .scheduleSet .. | .amend .. | .drain .. | .cancel .. | .ack .. | .release ..
  | .trip .. | .softReset .. => true
  | _ => false

/-- The other requests leave every record as it was: those of the timebase, the lines, the lanes, the sources and the link. -/
theorem serve_entries {c : Instr} {s : State} {r : State × Answer} (h : serve c s = some r) (hc : worksOnEntries c = false) :
    r.1.entries = s.entries := by
  cases c <;> cases h
  case nop | readTime | summary => rfl
  case query => exact withEntry_ind (P := fun r => r.1.entries = s.entries) _ _ _ rfl fun _ => rfl
  case setTime => unfold reqSetTime; split <;> rfl
  case setDivider => unfold reqSetDivider; (repeat' split) <;> rfl
  case triggerConfig => unfold reqTriggerConfig; split <;> rfl
  case laneConfig => unfold reqLaneConfig; (repeat' split) <;> rfl
  case laneSet => unfold reqLaneSet; (repeat' split) <;> rfl
  case laneQuery => unfold reqLaneQuery; split <;> rfl
  case strobeConfig => unfold reqStrobeConfig; (repeat' split) <;> rfl
  case tripConfig =>
    unfold reqTripConfig
    repeat' split
    · rfl
    · exact s.setTrip_entries _ _
    · rfl
  case clearTrip =>
    unfold reqClearTrip
    repeat' split
    · rfl
    · exact s.clearSource_entries _
    · rfl
    · rfl
  all_goals exact Bool.noConfusion hc

/-! ### What a request clears -/

/-- The request clears the record of entry `x`: an ACK or a RELEASE that names it, or SOFT_RESET (R34, R35, R37). -/
def clearsEntry (c : Instr) (x : Fin 64) : Bool :=
  match c with
  | .ack _ b | .release _ b => decide (b.toNat = x.val)
  | .softReset _ => true
  | _ => false

/-- A request that writes the record of a named entry leaves those it does not name as they were. -/
theorem withEntry_setEntry_other {b : Byte} {x : Fin 64} (hx : b.toNat ≠ x.val) {s : State} {f : Fin 64 → State × Answer}
    (hf : ∀ e, (f e).1 = s ∨ ∃ r, (f e).1 = s.setEntry e r) : (withEntry b s f).1.entry x = s.entry x := by
  unfold withEntry entryOf
  split
  · next e he =>
    split at he
    · next hb =>
      have hne : x ≠ e := fun c => hx (by rw [c, ← Option.some.inj he])
      rcases hf e with h | ⟨r, h⟩ <;> rw [h]
      exact s.entry_setEntry_ne r hne
    · cases he
  · rfl

theorem reqAck_other {b : Byte} {x : Fin 64} (hx : b.toNat ≠ x.val) (s : State) :
    (reqAck b s).1.entry x = s.entry x :=
  withEntry_setEntry_other hx fun e => by
    split
    · exact .inr ⟨_, rfl⟩
    · exact .inl rfl

theorem reqRelease_other {b : Byte} {x : Fin 64} (hx : b.toNat ≠ x.val) (s : State) :
    (reqRelease b s).1.entry x = s.entry x :=
  withEntry_setEntry_other hx fun e => by
    split
    · exact .inr ⟨_, rfl⟩
    · exact .inl rfl

/-- SOFT_RESET leaves every entry FREE (R37). -/
theorem reqSoftReset_entry (s : State) (x : Fin 64) : (reqSoftReset s).1.entry x = Entry.free := by
  obtain ⟨ks, hk⟩ := ((s.freeEntries.setDue []).setDispatch none).clearSubscriptions_eq
  obtain ⟨ls, hl⟩ := (((s.freeEntries.setDue []).setDispatch none).clearSubscriptions).clearClaims_eq
  unfold reqSoftReset
  rw [hl, hk]
  exact Vector.getElem_replicate _

/-- What a request does not clear evolves (R29). -/
theorem serve_evolves {c : Instr} {s : State} {r : State × Answer} (h : serve c s = some r) {x : Fin 64}
    (hx : clearsEntry c x = false) : (s.entry x).Evolves x (r.1.entry x) := by
  have hrest : worksOnEntries c = false → (s.entry x).Evolves x (r.1.entry x) := fun hc =>
    State.Evolves.of_entries (serve_entries h hc) x
  cases c <;> cases h
  case define => exact reqDefine_evolves _ _ _ _ _ _ _ _ s x
  case schedule => exact reqSchedule_evolves _ _ _ s x
  case scheduleSet => exact reqScheduleSet_evolves _ _ _ _ s x
  case amend => exact reqAmend_evolves _ _ _ _ _ _ s x
  case drain => exact reqDrain_evolves _ s x
  case cancel => exact reqCancel_evolves _ s x
  case trip => exact reqTrip_evolves _ s x
  case ack =>
    rw [reqAck_other (of_decide_eq_false hx)]
    exact .refl x _
  case release =>
    rw [reqRelease_other (of_decide_eq_false hx)]
    exact .refl x _
  case softReset => exact Bool.noConfusion hx
  all_goals exact hrest rfl

/-- A record cleared keeps its laws (R34, R35, R37). -/
theorem serve_cleared {c : Instr} {s : State} {r : State × Answer} (h : serve c s = some r) {x : Fin 64}
    (hx : clearsEntry c x = true) (hs : (s.entry x).Sound x ∧ (s.entry x).Counted) :
    (r.1.entry x).Sound x ∧ (r.1.entry x).Counted := by
  cases c <;> cases h
  case ack tag b =>
    have hb : x.val = b.toNat := (of_decide_eq_true hx).symm
    unfold reqAck
    rw [withEntry_of_eq hb]
    split
    · next hd =>
      rw [State.entry_setEntry_self]
      exact ⟨Entry.idle_sound x (hs.1.programmes (by simp [hd])).1, Entry.counted_of_not_run nofun nofun⟩
    · exact hs
  case release tag b =>
    have hb : x.val = b.toNat := (of_decide_eq_true hx).symm
    unfold reqRelease
    rw [withEntry_of_eq hb]
    split
    · rw [State.entry_setEntry_self]
      exact ⟨Entry.free_sound x, Entry.free_counted⟩
    · exact hs
  case softReset =>
    rw [reqSoftReset_entry]
    exact ⟨Entry.free_sound x, Entry.free_counted⟩
  all_goals exact Bool.noConfusion hx

/-- Every owner of a request keeps the law of entry records. -/
theorem serve_entriesLawful {c : Instr} {s : State} {r : State × Answer} (h : serve c s = some r) (hs : s.EntriesLawful) :
    r.1.EntriesLawful := by
  refine (State.entriesLawful_iff _).mpr fun x => ?_
  have hx := s.entriesLawful_iff.mp hs x
  cases hc : clearsEntry c x with
  | false =>
    have he := serve_evolves h hc
    exact ⟨he.sound hx.1, he.counted hx.2⟩
  | true => exact serve_cleared h hc hx

end Sys2Proof.Machine
end

section
/-! SUPPORT. Every command and every CLK edge keeps the law of entry records, and a DONE record stands (R29). -/

namespace Sys2Proof.Machine

/-! ### The commands that are no requests -/

/-- An event that waits for RESET_N high evolves the records where its effect does. -/
theorem State.whenRunning_evolves {s : State} {f : State → State} (h : s.Evolves (f s)) : s.Evolves (s.whenRunning f) :=
  .ite (.refl s) h

/-- An event of a tick, a trip input or the link evolves the records; a reset clears them, and the end of an execution may take
a request. -/
theorem exec_evolves_of_event {c : Instr} (s : State) (hr : isRequest c = false) (h1 : c ≠ .powerOn) (h2 : c ≠ .resetNAssert)
    (h3 : c ≠ .resetNRelease) (h4 : c ≠ .executionEnd) : ∃ t, exec c s = .next t ∧ s.Evolves t := by
  cases c
  case powerOn | resetNAssert | resetNRelease | executionEnd => contradiction
  case tickEvent levels order => exact ⟨_, rfl, State.whenRunning_evolves (s.tick_evolves levels order)⟩
  case overrun => exact ⟨_, rfl, State.whenRunning_evolves (.ite s.overrunOne_evolves (.refl s))⟩
  case action => exact ⟨_, rfl, State.whenRunning_evolves s.actionOne_evolves⟩
  case strobePulseEnd k => exact ⟨_, rfl, State.whenRunning_evolves (.ite (s.countdown_evolves k) (.refl s))⟩
  case triggerSample n level =>
    exact ⟨_, rfl, State.whenRunning_evolves (.ite ((s.setTrg_evolves n level).trans (State.takeSample_evolves _ n level))
      (.refl s))⟩
  case qualifiedEdge n =>
    refine ⟨_, rfl, State.whenRunning_evolves ?_⟩
    split
    · exact .ite ((s.setTrg_evolves n _).trans (State.takeSample_evolves _ n _)) (.refl s)
    · exact .refl s
  case tripInputActive i => exact ⟨_, rfl, State.whenRunning_evolves (s.tripReads_evolves i _)⟩
  case tripInputInactive i => exact ⟨_, rfl, State.whenRunning_evolves (s.tripReads_evolves i _)⟩
  case tripFilterSample i level =>
    exact ⟨_, rfl, State.whenRunning_evolves (s.settle_evolves.trans (State.sampleTripPin_evolves _ i level))⟩
  case csNFall => exact ⟨_, rfl, .ite (.of_entries rfl) (.ite (.of_entries rfl) (.of_entries rfl))⟩
  case csNRise => exact ⟨_, rfl, .ite (.of_entries rfl) (.of_entries rfl)⟩
  case byteReceived => exact ⟨_, rfl, State.whenRunning_evolves (.of_entries rfl)⟩
  all_goals exact Bool.noConfusion hr

/-! ### Executions (R146) -/

theorem State.EntriesLawful.settle {s : State} (h : s.EntriesLawful) : s.settle.EntriesLawful := s.settle_evolves.lawful h

theorem State.EntriesLawful.serveSettled {s : State} (h : s.EntriesLawful) (c : Instr) : (s.serveSettled c).1.EntriesLawful := by
  unfold State.serveSettled
  cases hs : serve c s.settle with
  | none => exact h
  | some r => exact serve_entriesLawful hs h.settle

theorem State.EntriesLawful.endExecution {s : State} (h : s.EntriesLawful) : s.endExecution.EntriesLawful := by
  unfold State.endExecution
  split
  · exact h.serveSettled _
  · exact h
  · exact h
  · exact h

theorem State.EntriesLawful.ite {c : Prop} [Decidable c] {s t : State} (hs : s.EntriesLawful) (ht : t.EntriesLawful) :
    (if c then s else t).EntriesLawful := by
  split
  · exact hs
  · exact ht

/-- A request keeps the law of entry records, at its take point and as a whole execution (R146). -/
theorem State.EntriesLawful.request {s : State} (h : s.EntriesLawful) {c : Instr} {own : State → State × Answer}
    (hc : ∀ s, serve c s = some (own s)) : (s.request c own).EntriesLawful :=
  .ite h (.ite (serve_entriesLawful (hc _) h.settle) (serve_entriesLawful (hc _) h.endExecution.settle))

/-- A reset leaves every entry FREE, which keeps the law (R36). -/
theorem State.EntriesLawful.blocksReset (s : State) (pins : Pins) (transaction : Transaction) :
    (s.blocksReset pins transaction).EntriesLawful := by
  refine (State.entriesLawful_iff _).mpr fun x => ?_
  have hx : (s.blocksReset pins transaction).entry x = Entry.free := State.reset_entry x
  rw [hx]
  exact ⟨Entry.free_sound x, Entry.free_counted⟩

/-- Every command answers a next state that keeps the law of entry records. -/
theorem exec_entriesLawful {s : State} (h : s.EntriesLawful) (c : Instr) : ∃ t, exec c s = .next t ∧ t.EntriesLawful := by
  rcases hr : isRequest c with _ | _
  · by_cases h1 : c = .powerOn
    · exact h1 ▸ ⟨_, rfl, State.EntriesLawful.blocksReset _ _ _⟩
    by_cases h2 : c = .resetNAssert
    · exact h2 ▸ ⟨_, rfl, State.EntriesLawful.blocksReset _ _ _⟩
    by_cases h3 : c = .resetNRelease
    · exact h3 ▸ ⟨_, rfl, .ite (State.EntriesLawful.blocksReset _ _ _) h⟩
    by_cases h4 : c = .executionEnd
    · exact h4 ▸ ⟨_, rfl, .ite h h.endExecution⟩
    obtain ⟨t, ht, he⟩ := exec_evolves_of_event s hr h1 h2 h3 h4
    exact ⟨t, ht, he.lawful h⟩
  · obtain ⟨own, hs, he⟩ := exec_of_isRequest hr
    exact ⟨_, he s, h.request hs⟩

/-! ### The CLK edge -/

theorem State.clkTimebase_evolves (s : State) (order : List TickUnit) : s.Evolves (s.clkTimebase order) :=
  .ite (s.tick_evolves _ _) (.of_entries rfl)

theorem State.clkTrips_evolves (s : State) (restarted : List TripInput) : s.Evolves (s.clkTrips restarted) := by
  unfold State.clkTrips
  dsimp only
  generalize s.sourceAtEdge restarted .a = a, s.sourceAtEdge restarted .b = b
  have hu : s.Evolves ((s.setTrip .a a).setTrip .b b) := .of_entries rfl
  split
  · exact hu.trans (State.takeTrips_evolves _ _)
  · next tag g _ =>
    have hv : s.Evolves (((s.setTrip .a a).setTrip .b b).setSoft (s.soft.tripped g)) := .of_entries rfl
    exact (hv.trans (State.takeTrips_evolves _ _)).trans (.of_entries rfl)

theorem State.EntriesLawful.clkExecution {s : State} (h : s.EntriesLawful) : s.clkExecution.EntriesLawful := by
  unfold State.clkExecution
  split
  · exact .ite h.endExecution h
  · exact h
  · exact h

theorem State.EntriesLawful.clkUnit {s : State} (h : s.EntriesLawful) (order : List TickUnit) (restarted : List TripInput)
    (u : Config.EdgeUnit) : (s.clkUnit order restarted u).EntriesLawful := by
  cases u with
  | timebase => exact (s.clkTimebase_evolves order).lawful h
  | tripSamples => exact (s.clkTrips_evolves restarted).lawful h
  | execution => exact .ite ((s.clkTrips_evolves restarted).lawful h) h.clkExecution

theorem EdgeWork.take_entriesLawful (w : EdgeWork) (tickOrder : List TickUnit) (h : w.state.EntriesLawful)
    (u : Config.EdgeUnit) : (w.take tickOrder u).state.EntriesLawful := by
  unfold EdgeWork.take
  split
  · exact h
  · exact h.clkUnit tickOrder w.restarted u

theorem State.EntriesLawful.clkPartsIn {s : State} (h : s.EntriesLawful) (order : List Config.EdgeUnit)
    (tickOrder : List TickUnit) : (s.clkPartsIn order tickOrder).EntriesLawful := by
  have hw := List.foldlRecOn (motive := fun w : EdgeWork => w.state.EntriesLawful) order (EdgeWork.take tickOrder)
    (b := { state := s, overtaken := [], restarted := [] }) h fun w hw u _ => w.take_entriesLawful tickOrder hw u
  exact .ite hw hw

/-- A CLK edge keeps the law of entry records, in every order of its parts (log entry 4). -/
theorem State.EntriesLawful.clkEdge {s : State} (h : s.EntriesLawful) : s.clkEdge.EntriesLawful := by
  have hp : s.settle.clkParts.EntriesLawful := by
    unfold State.clkParts
    exact h.settle.clkPartsIn _ _
  exact .ite h hp

/-- Settles O57: a step is a command or a CLK edge, and each of their operations evolves the records or clears them. -/
theorem everyStepKeepsTheEntryLaws : Obligations.EveryStepKeepsTheEntryLaws := by
  unfold Obligations.EveryStepKeepsTheEntryLaws
  intro s t h hst
  unfold step at hst
  split at hst
  · next c rest _ =>
    obtain ⟨u, hu, hl⟩ := exec_entriesLawful (s := s.withPending rest) h c
    rwa [← Host.Outcome.next.inj (hu.symm.trans hst)]
  · rw [← Host.Outcome.next.inj hst]
    exact h.clkEdge

/-! ### A DONE record (R29) -/

/-- The end of an execution in which no request waits takes none (R146). -/
theorem State.endExecution_evolves {s : State} (h : s.link.buffer.isWaiting = false) : s.Evolves s.endExecution := by
  unfold State.endExecution
  split
  · next hb => simp [hb, Buffer.isWaiting] at h
  · exact .of_entries rfl
  · exact .refl s
  · exact .refl s

/-- Where no request waits, a command evolves every record that it does not clear. -/
theorem exec_evolves {c : Instr} {s : State} (hw : s.link.buffer.isWaiting = false) (h1 : c ≠ .powerOn)
    (h2 : c ≠ .resetNAssert) (h3 : c ≠ .resetNRelease) {x : Fin 64} (hx : clearsEntry c x = false) :
    ∃ t, exec c s = .next t ∧ (s.entry x).Evolves x (t.entry x) := by
  rcases hr : isRequest c with _ | _
  · by_cases h4 : c = .executionEnd
    · exact h4 ▸ ⟨_, rfl, State.whenRunning_evolves (State.endExecution_evolves hw) x⟩
    obtain ⟨t, ht, he⟩ := exec_evolves_of_event s hr h1 h2 h3 h4
    exact ⟨t, ht, he x⟩
  · obtain ⟨own, hs, he⟩ := exec_of_isRequest hr
    refine ⟨_, he s, ?_⟩
    rcases hin : s.inReset with _ | _
    · rw [State.request_of_not_waiting hin fun c => by simp [c, Buffer.isWaiting] at hw]
      exact (((State.endExecution_evolves hw).trans (State.settle_evolves _)) x).trans (serve_evolves (hs _) hx)
    · rw [State.request_of_inReset hin]
      exact .refl x _

/-- Settles O60: no command that leaves the records uncleared writes a DONE one but at the ends of its links. -/
theorem aDoneEntryKeepsItsRecord : Obligations.ADoneEntryKeepsItsRecord := by
  unfold Obligations.ADoneEntryKeepsItsRecord
  intro s t c e hd hw hsoft hclear h1 h2 h3 hst
  have hx : clearsEntry c e = false := by
    cases c
    case ack tag b => exact decide_eq_false fun hb => (hclear tag b hb).1 rfl
    case release tag b => exact decide_eq_false fun hb => (hclear tag b hb).2 rfl
    case softReset tag => exact absurd rfl (hsoft tag)
    all_goals rfl
  obtain ⟨u, hu, he⟩ := exec_evolves hw h1 h2 h3 hx
  rw [← Host.Outcome.next.inj (hu.symm.trans hst)]
  exact he.done hd

end Sys2Proof.Machine
end

section
/-! SUPPORT. DEFINE, ACK and RELEASE on a steady part (R20, R34, R35): what the bytes of a DEFINE name, and the record each
request leaves. -/

namespace Sys2Proof.Machine

/-! ### What the bytes of a DEFINE name (Table 10-5) -/

/-- A lane of a programme is named by 0 to 15, and no lane by 0xFF. -/
theorem progLaneOf_eq (b : Byte) :
    progLaneOf b = if b.toNat < 16 ∨ b = 0xFF then some (if h : b.toNat < 16 then some ⟨b.toNat, h⟩ else none) else none := by
  unfold progLaneOf laneOf
  by_cases hff : b = 0xFF
  · subst hff
    rfl
  · rw [if_neg hff]
    by_cases h : b.toNat < 16
    · rw [if_pos (.inl h), dif_pos h]
      rfl
    · rw [if_neg (not_or.mpr ⟨h, hff⟩), dif_neg h]
      rfl

/-- 0 and 1 are no and yes. -/
theorem yesNoOf_eq (b : Byte) : yesNoOf b = if b.toNat ≤ 1 then some (decide (b = 1)) else none := by
  unfold yesNoOf
  by_cases h0 : b = 0
  · subst h0
    rfl
  · by_cases h1 : b = 1
    · subst h1
      rfl
    · have hn : ¬ b.toNat ≤ 1 := by bv_omega
      rw [if_neg h0, if_neg h1, if_neg hn]

/-- Bits 6, 3 and 2 of a strobe byte are zero. -/
theorem strobeReserved_iff (b : Byte) :
    (b.getLsbD 6 || b.getLsbD 3 || b.getLsbD 2) = false ↔ b &&& 0x4C = 0 := by
  revert b
  decide +kernel

/-- The three points of a strobe, and the one pattern that names none. -/
theorem strobePointOf_eq (b : BitVec 2) :
    strobePointOf b =
      if b ≠ 3 then some (if b = 0 then .start else if b = 1 then .active else .inactive) else none := by
  revert b
  decide

/-- A strobe byte names no strobe with bit 7 clear, and with it set a line and a point, the other bits zero. -/
theorem strobeOf_eq (b : Byte) :
    strobeOf b =
      if b.getLsbD 7 = true → b &&& 0x4C = 0 ∧ b.extractLsb' 4 2 ≠ 3 then
        some (if b.getLsbD 7 then
          some ⟨(b.extractLsb' 0 2).toFin,
            if b.extractLsb' 4 2 = 0 then .start else if b.extractLsb' 4 2 = 1 then .active else .inactive⟩
        else none)
      else none := by
  unfold strobeOf
  rcases h7 : b.getLsbD 7 with _ | _
  · rw [if_neg nofun, if_pos nofun, if_neg nofun]
  · rw [if_pos rfl, if_pos rfl, strobePointOf_eq]
    by_cases hz : b &&& 0x4C = 0
    · rw [(strobeReserved_iff b).mpr hz, if_neg nofun]
      by_cases hp : b.extractLsb' 4 2 = 3
      · rw [if_neg (not_not.mpr hp), if_neg fun c => (c rfl).2 hp]
        rfl
      · rw [if_pos hp, if_pos fun _ => ⟨hz, hp⟩]
        rfl
    · rw [Bool.eq_true_of_not_eq_false (mt (strobeReserved_iff b).mp hz), if_pos rfl, if_neg fun c => hz (c rfl).1]

/-- What the bytes of a DEFINE name a programme by (R156, check 3). -/
def DefineBytesOk (lane strobe notify : Byte) : Prop :=
  (lane.toNat < 16 ∨ lane = 0xFF) ∧ notify.toNat ≤ 1 ∧
    (strobe.getLsbD 7 = true → strobe &&& 0x4C = 0 ∧ strobe.extractLsb' 4 2 ≠ 3)

/-- The programme that the bytes of a DEFINE spell. -/
def definedProgramme (lane : Byte) (delay width period : Ticks) (count : Count) (strobe notify : Byte) : Programme where
  lane := if h : lane.toNat < 16 then some ⟨lane.toNat, h⟩ else none
  delay := delay
  width := width
  period := period
  count := count
  strobe :=
    if strobe.getLsbD 7 then
      some ⟨(strobe.extractLsb' 0 2).toFin,
        if strobe.extractLsb' 4 2 = 0 then .start else if strobe.extractLsb' 4 2 = 1 then .active else .inactive⟩
    else none
  notify := decide (notify = 1)

/-- A DEFINE carries the programme its bytes spell where each of them names a value, and none otherwise. -/
theorem programmeOf_of_ok {lane strobe notify : Byte} (h : DefineBytesOk lane strobe notify) (delay width period : Ticks)
    (count : Count) : programmeOf lane delay width period count strobe notify =
      some (definedProgramme lane delay width period count strobe notify) := by
  obtain ⟨hl, hn, hs⟩ := h
  rw [programmeOf, progLaneOf_eq, if_pos hl, strobeOf_eq, if_pos hs, yesNoOf_eq, if_pos hn]
  rfl

theorem programmeOf_of_not_ok {lane strobe notify : Byte} (h : ¬ DefineBytesOk lane strobe notify)
    (delay width period : Ticks) (count : Count) : programmeOf lane delay width period count strobe notify = none := by
  rw [programmeOf, progLaneOf_eq, strobeOf_eq, yesNoOf_eq]
  by_cases hl : lane.toNat < 16 ∨ lane = 0xFF
  · by_cases hs : strobe.getLsbD 7 = true → strobe &&& 0x4C = 0 ∧ strobe.extractLsb' 4 2 ≠ 3
    · have hn : ¬ notify.toNat ≤ 1 := fun hn => h ⟨hl, hn, hs⟩
      rw [if_pos hl, if_pos hs, if_neg hn]
      rfl
    · rw [if_pos hl, if_neg hs]
      rfl
  · rw [if_neg hl]
    rfl

/-! ### A request that names an entry, on a steady part -/

/-- A request command whose owner's answer is known, on a steady part (R146). -/
theorem request_answered {s t : State} (h : s.Steady) {c : Instr} {own : State → State × Answer} {a : Answer}
    (hown : own s = (t, a)) : s.request c own = t.answered c a := by
  rw [State.request_of_steady h, hown]
  rfl

/-- Settles O33: the programme its bytes spell is the one written, and a byte that names no value, or a programme that is not
valid, is the last check. -/
theorem defineWritesTheProgramme : Obligations.DefineWritesTheProgramme := by
  unfold Obligations.DefineWritesTheProgramme
  intro s tag e l st nt delay width period count hsteady
  refine ⟨fun he => congrArg Host.Outcome.next (request_answered hsteady (withEntry_of_large he _ _)), fun i hi => ?_⟩
  refine ⟨fun hf hidle => ?_, fun hstate hok => ?_, fun hstate hbad => ?_⟩ <;>
    refine congrArg Host.Outcome.next (request_answered hsteady ((withEntry_of_eq hi _ _).trans ?_))
  · exact if_neg fun c => c.elim hf hidle
  · obtain ⟨hl, hn, hp, hs⟩ := hok
    rw [if_pos hstate, programmeOf_of_ok ⟨hl, hn, hs⟩]
    exact if_pos ((Programme.valid_iff _).mpr hp)
  · rw [if_pos hstate]
    by_cases hok : DefineBytesOk l st nt
    · obtain ⟨hl, hn, hs⟩ := hok
      rw [programmeOf_of_ok ⟨hl, hn, hs⟩]
      exact if_neg fun c => hbad ⟨hl, hn, (Programme.valid_iff _).mp c, hs⟩
    · rw [programmeOf_of_not_ok hok]
      rfl

/-- Settles O44: the records that ACK and RELEASE write are the cleared values of Table 2-1, but for the programme that ACK
keeps. -/
theorem ackAndReleaseClear : Obligations.AckAndReleaseClear := by
  unfold Obligations.AckAndReleaseClear
  intro s tag e i hsteady hi
  refine ⟨fun hd => ?_, fun hd => ?_⟩ <;>
    refine congrArg Host.Outcome.next (request_answered hsteady ((withEntry_of_eq hi _ _).trans ?_))
  · exact if_pos hd
  · exact if_pos hd.symm

end Sys2Proof.Machine
end

section
/-! SUPPORT. An accepted SCHEDULE on a steady part (R22 to R26, R101, R117): the claim it makes, the record it writes, and the
structure of its start kind that the entry joins. -/

namespace Sys2Proof.Machine

/-! ### Numbers as bytes (Table 10-5) -/

/-- The byte of an entry number names the entry. -/
theorem entryOf_ofNat (p : Fin 64) : entryOf (BitVec.ofNat 8 p.val) = some p := by
  have h : (BitVec.ofNat 8 p.val).toNat = p.val := (BitVec.toNat_ofNat _ _).trans (Nat.mod_eq_of_lt (by omega))
  simp [entryOf, h]

/-- The byte of a trigger line names the line. -/
theorem lineOf_ofNat (n : Fin 8) : lineOf (BitVec.ofNat 8 n.val) = some n := by
  have h : (BitVec.ofNat 8 n.val).toNat = n.val := (BitVec.toNat_ofNat _ _).trans (Nat.mod_eq_of_lt (by omega))
  simp [lineOf, h]

/-- The bytes of an instant spell it (R154). -/
theorem ofBytes4_extract (t : Instant) :
    ofBytes4 (t.extractLsb' 24 8) (t.extractLsb' 16 8) (t.extractLsb' 8 8) (t.extractLsb' 0 8) = t := by
  have h2 : t.extractLsb' 24 8 ++ t.extractLsb' 16 8 = t.extractLsb' 16 16 :=
    BitVec.extractLsb'_append_extractLsb'_eq_extractLsb' rfl
  have h3 : t.extractLsb' 16 16 ++ t.extractLsb' 8 8 = t.extractLsb' 8 24 :=
    BitVec.extractLsb'_append_extractLsb'_eq_extractLsb' rfl
  have h4 : t.extractLsb' 8 24 ++ t.extractLsb' 0 8 = t.extractLsb' 0 32 :=
    BitVec.extractLsb'_append_extractLsb'_eq_extractLsb' rfl
  rw [ofBytes4, h2, h3, h4]
  exact BitVec.extractLsb'_eq_self

/-! ### The start fields -/

theorem startFieldsOf_atTime (t : Instant) {late : Byte} (h : late.toNat ≤ 1) :
    startFieldsOf 1 ⟨t.extractLsb' 24 8, t.extractLsb' 16 8, t.extractLsb' 8 8, t.extractLsb' 0 8, late⟩ =
      some (.atTime t (decide (late = 1))) := by
  rw [startFieldsOf, if_pos rfl, yesNoOf_eq, if_pos h, ofBytes4_extract]
  rfl

/-- The policies of EVERY. -/
theorem retriggerOf_eq {policy : Byte} (h : policy.toNat ≤ 2) :
    retriggerOf policy = some (if policy = 0 then .ignore else if policy = 1 then .restart else .holdOne) := by
  unfold retriggerOf
  by_cases h0 : policy = 0
  · rw [if_pos h0, if_pos h0]
  · by_cases h1 : policy = 1
    · rw [if_neg h0, if_pos h1, if_neg h0, if_pos h1]
    · rw [if_neg h0, if_neg h1, if_neg h0, if_neg h1, if_pos (by bv_omega)]

theorem startFieldsOf_onTrigger (n : Fin 8) {mode policy : Byte} (b3 b4 : Byte)
    (h : mode = 0 ∨ (mode = 1 ∧ policy.toNat ≤ 2)) :
    startFieldsOf 2 ⟨BitVec.ofNat 8 n.val, mode, policy, b3, b4⟩ =
      some (if mode = 0 then .onTrigger n .once .ignore
        else .onTrigger n .every (if policy = 0 then .ignore else if policy = 1 then .restart else .holdOne)) := by
  rw [startFieldsOf, if_neg (by decide), if_pos rfl, lineOf_ofNat]
  rcases h with rfl | ⟨rfl, hp⟩
  · rfl
  · have hr : retriggerFor .every policy = _ := retriggerOf_eq hp
    simp only [Option.bind_some, show modeOf 1 = some .every from rfl, hr, Option.map_some]
    rfl

/-! ### The claim (R101, R117) -/

/-- A claim that the lane takes is written there, and changes the lanes alone. -/
theorem State.claimLane_of_ok {s : State} {e : Fin 64} {start : Start} {l : Fin 16} {r : Lane}
    (hl : (s.entry e).prog.lane = some l) (hr : (s.lane l).claim e start = .ok r) :
    s.claimLane e start = .ok (s.setLane l r) ∧
      ∀ x : Fin 16, (s.setLane l r).lane x = if (s.entry e).prog.lane = some x then r else s.lane x := by
  refine ⟨by simp only [State.claimLane, hl, hr], fun x => ?_⟩
  rw [s.lane_setLane, hl]
  simp only [Option.some.injEq, eq_comm]

/-- On a free lane, or none, the claim is an owner claim, whatever the start kind (R101). -/
theorem State.claimLane_of_free {s : State} {e : Fin 64} (h : s.LaneFree e) (start : Start) :
    ∃ ls, s.claimLane e start = .ok { s with lanes := ls } ∧ s.OwnedBy { s with lanes := ls } e := by
  rcases hl : (s.entry e).prog.lane with _ | l
  · exact ⟨s.lanes, by simp only [State.claimLane, hl], fun x => by rw [hl]; rfl⟩
  · obtain ⟨ht, ho, hh, hf⟩ := h l hl
    have hp : (s.lane l).ownedByPredecessor start = false := by
      cases start <;> simp [Lane.ownedByPredecessor, ho]
    have hany : (s.lane l).trippedBy.any = false := by rw [ht]; rfl
    obtain ⟨hc, hlane⟩ := State.claimLane_of_ok (r := (s.lane l).claimedBy e) (start := start) hl
      (by simp [Lane.claim, hany, ho, hh, hf, hp])
    refine ⟨_, hc, fun x => (hlane x).trans ?_⟩
    split
    · next hx => rw [Option.some.inj (hl.symm.trans hx)]; rfl
    · rfl

/-- On a lane that its predecessor owns alone, the claim is an heir claim (R117, Table 7-1). -/
theorem State.claimLane_of_heir {s : State} {e p : Fin 64} {l : Fin 16} (hl : (s.entry e).prog.lane = some l)
    (ht : (s.lane l).trippedBy = TrippedBy.empty) (ho : (s.lane l).owner = some p) (hh : (s.lane l).heir = none) :
    ∃ ls, s.claimLane e (.after p) = .ok { s with lanes := ls } ∧ ∀ x : Fin 16, ({ s with lanes := ls } : State).lane x =
      if (s.entry e).prog.lane = some x then { s.lane x with heir := some e } else s.lane x := by
  have hany : (s.lane l).trippedBy.any = false := by rw [ht]; rfl
  obtain ⟨hc, hlane⟩ := State.claimLane_of_ok (r := { s.lane l with heir := some e }) (start := .after p) hl
    (by simp [Lane.claim, Lane.ownedByPredecessor, hany, ho, hh])
  refine ⟨_, hc, fun x => (hlane x).trans ?_⟩
  split
  · next hx => rw [Option.some.inj (hl.symm.trans hx)]
  · rfl

/-- Entry `p` owns the lane that entry `e` names, and the lane has no heir (R117). -/
abbrev State.Inherits (s : State) (e p : Fin 64) : Prop :=
  ∃ l : Fin 16, (s.entry e).prog.lane = some l ∧
    (s.lane l).trippedBy = TrippedBy.empty ∧ (s.lane l).owner = some p ∧ (s.lane l).heir = none

/-- The claim of an entry behind `p`: as heir where `p` owns the lane, else as owner of a free lane (R117). -/
theorem State.claimLane_after {s : State} {e p : Fin 64} (h : s.Inherits e p ∨ s.LaneFree e) :
    ∃ ls, s.claimLane e (.after p) = .ok { s with lanes := ls } ∧
      if s.Inherits e p then ∀ l : Fin 16, ({ s with lanes := ls } : State).lane l =
          if (s.entry e).prog.lane = some l then { s.lane l with heir := some e } else s.lane l
        else s.OwnedBy { s with lanes := ls } e := by
  split
  · next hi =>
    obtain ⟨l, hl, ht, ho, hh⟩ := hi
    exact State.claimLane_of_heir hl ht ho hh
  · next hi => exact State.claimLane_of_free (h.resolve_left hi) _

/-! ### The command -/

/-- A SCHEDULE that passes its checks places the entry, and is answered OK (R22, R157). -/
theorem exec_schedule_of_accepted {s u : State} (h : s.Steady) {i : Fin 64} {e kind : Byte} (hi : i.val = e.toNat)
    (hidle : (s.entry i).state = .idle) {b : StartBlock} {f : StartFields} {start : Start}
    (hf : startFieldsOf kind b = some f) (hr : s.resolveStart i f = .ok start) (hu : s.claimLane i start = .ok u)
    (hp : s.timePast start = false) (tag : Byte) :
    exec (.schedule tag e kind b) s = .next ((u.place i start).setBuffer (.ready (frameOf 0x00 tag []))) := by
  refine congrArg Host.Outcome.next (request_answered (a := .ok) h ((withEntry_of_eq hi _ _).trans ?_))
  simp [hidle, hf, State.scheduleChecked, hr, hu, hp]

/-! ### The structure that the entry joins (R23, R24, R25) -/

/-- An item that is not past joins the due list (R67). -/
theorem State.insertItem_of_not_past {s : State} {e : Fin 64} (h : 0 ≤ signedDiff (s.entry e).nextInstant s.now) :
    s.insertItem e = s.joinDue e := by
  rw [State.insertItem, lateness_of_not_past h]
  rfl

/-- The item that joins is the entry's one item (R65, R68). -/
theorem State.joinDue_itemBecomes (s : State) (e : Fin 64) :
    s.ItemBecomes (s.joinDue e) e (some (s.entry e).nextInstant) := by
  refine ⟨s.joinDue_others e, List.perm_singleton.mp ?_⟩
  have hp := (s.joinDue_due_perm e).filter fun i => decide (i.entry = e)
  have hnone : (s.due.filter fun i => decide (i.entry ≠ e)).filter (fun i => decide (i.entry = e)) = [] :=
    List.filter_eq_nil_iff.mpr fun i hi => by simpa using (List.mem_filter.mp hi).2
  rwa [List.filter_cons_of_pos (by simp), hnone] at hp

/-- The instant from which an AT_TIME start counts: `now` where T is past (R23). -/
theorem Entry.scheduleAt_atTime (r : Entry) (t now : Instant) (late : Bool) :
    r.scheduleAt (.atTime t late) now = { r with
      state := .pending
      start := some (.atTime (if signedDiff t now < 0 then now else t) late)
      nextInstant := if signedDiff t now < 0 then now else t
      flags := { r.flags with lateStart := r.flags.lateStart || decide (signedDiff t now < 0) } } := by
  unfold Entry.scheduleAt
  by_cases h : signedDiff t now < 0
  · simp [h, (isPast_iff t now).mpr h]
  · have hp : isPast t now = false := Bool.eq_false_iff.mpr fun c => h ((isPast_iff t now).mp c)
    simp [h, hp]

/-- The instant from which an AT_TIME start counts is not past (R23). -/
theorem signedDiff_rebased (t now : Instant) : 0 ≤ signedDiff (if signedDiff t now < 0 then now else t) now := by
  split
  · simp [signedDiff]
  · omega

/-- An AT_TIME entry is written, and its item joins the due list (R23, R68). -/
theorem State.place_atTime (s : State) (e : Fin 64) (t : Instant) (late : Bool) :
    s.place e (.atTime t late) = (s.setEntry e ((s.entry e).scheduleAt (.atTime t late) s.now)).joinDue e := by
  refine State.insertItem_of_not_past ?_
  rw [State.entry_setEntry_self, Entry.scheduleAt_atTime]
  exact signedDiff_rebased t s.now

/-- Settles O35: the start passes its checks, the claim is an owner claim, and the item, due at `now` or later, joins the due
list. -/
theorem scheduleAtTime : Obligations.ScheduleAtTime := by
  unfold Obligations.ScheduleAtTime
  intro s tag e late i t hsteady hi
  dsimp only
  intro hidle hfree hlate hpast
  obtain ⟨ls, hclaim, howned⟩ := State.claimLane_of_free hfree (.atTime t (decide (late = 1)))
  have htime : s.timePast (.atTime t (decide (late = 1))) = false := by
    simpa [State.timePast, isPast_iff] using hpast
  refine ⟨_, exec_schedule_of_accepted hsteady hi hidle (startFieldsOf_atTime t hlate) rfl hclaim htime tag, ?_⟩
  rw [State.place_atTime]
  refine ⟨(State.entry_setEntry_self _ _ _).trans (Entry.scheduleAt_atTime _ _ _ _), ?_, howned,
    fun x hx => State.entry_setEntry_ne _ _ (by simpa using hx), rfl, rfl, ⟨rfl, rfl, rfl, rfl⟩, ⟨rfl, rfl, rfl⟩, rfl⟩
  have hitem := State.joinDue_itemBecomes
    (({ s with lanes := ls } : State).setEntry i ((s.entry i).scheduleAt (.atTime t (decide (late = 1))) s.now)) i
  rw [State.entry_setEntry_self, Entry.scheduleAt_atTime] at hitem
  rw [Entry.scheduleAt_atTime]
  exact hitem

/-- An ON_TRIGGER entry joins the tail of the list that its start names (R24, R86). -/
theorem State.place_onTrigger_line (s : State) (e : Fin 64) (n : Fin 8) (m : Mode) (r : Retrigger) (x : Fin 8) :
    (s.place e (.onTrigger n m r)).line x =
      if x = n then { s.line n with subs := (s.line n).subs ++ [e] } else s.line x :=
  State.subscribe_line (s.setEntry e ((s.entry e).scheduleAt (.onTrigger n m r) s.now)) n x e

/-- Settles O36: the start passes its checks, the claim is an owner claim, and the entry joins the tail of the list that its
start names. -/
theorem scheduleOnTrigger : Obligations.ScheduleOnTrigger := by
  unfold Obligations.ScheduleOnTrigger
  intro s tag e mode policy b3 b4 i n hsteady hi
  dsimp only
  intro hidle hfree hmode
  have hstart : ∃ m r, (if mode = 0 then .onTrigger n .once .ignore else .onTrigger n .every
      (if policy = 0 then .ignore else if policy = 1 then .restart else .holdOne) : Start) = .onTrigger n m r ∧
      startFieldsOf 2 ⟨BitVec.ofNat 8 n.val, mode, policy, b3, b4⟩ = some (.onTrigger n m r) := by
    rw [startFieldsOf_onTrigger n b3 b4 hmode]
    split
    · exact ⟨_, _, rfl, rfl⟩
    · exact ⟨_, _, rfl, rfl⟩
  obtain ⟨m, r, hst, hfields⟩ := hstart
  rw [hst]
  obtain ⟨ls, hclaim, howned⟩ := State.claimLane_of_free hfree (.onTrigger n m r)
  refine ⟨_, exec_schedule_of_accepted hsteady hi hidle hfields rfl hclaim rfl tag, ?_⟩
  have hline := State.place_onTrigger_line ({ s with lanes := ls } : State) i n m r
  refine ⟨State.entry_setEntry_self _ _ _, ?_, fun x hx => (hline x).trans (if_neg hx), fun x => ?_, rfl, howned,
    fun x hx => State.entry_setEntry_ne _ _ (by simpa using hx), rfl, ⟨rfl, rfl, rfl, rfl⟩, ⟨rfl, rfl, rfl⟩, rfl⟩
  · exact congrArg TriggerLine.subs ((hline n).trans (if_pos rfl))
  · refine (congrArg (fun l : TriggerLine => { l with subs := [] }) (hline x)).trans ?_
    split
    · next hx => rw [hx]; rfl
    · rfl

/-- An entry that waits for another is linked with it at both ends (R25, R116). -/
theorem State.place_after_entry (s : State) {e p : Fin 64} (h : p ≠ e) (x : Fin 64) :
    (s.place e (.after p)).entry x =
      if x = p then { s.entry p with successor := some e } else
        if x = e then { s.entry e with state := .pending, start := some (.after p), predecessor := some p }
        else s.entry x := by
  refine (State.entry_setEntry _ p x _).trans ?_
  rw [State.entry_setEntry_ne _ _ h, State.entry_setEntry]
  rfl

/-- Settles O37: the predecessor is valid for a link, the claim is an heir claim where it owns the lane, and the link is made at
both ends. -/
theorem scheduleAfter : Obligations.ScheduleAfter := by
  unfold Obligations.ScheduleAfter
  intro s tag e b1 b2 b3 b4 i p hsteady hi
  dsimp only
  intro hidle hne hsch hsucc hlane
  have hresolve : s.resolveStart i (.after (BitVec.ofNat 8 p.val)) = .ok (.after p) := by
    simp [State.resolveStart, entryOf_ofNat, State.chainValid, hne, hsch, hsucc]
  obtain ⟨ls, hclaim, hlanes⟩ := State.claimLane_after hlane
  have hfields : startFieldsOf 3 ⟨BitVec.ofNat 8 p.val, b1, b2, b3, b4⟩ = some (.after (BitVec.ofNat 8 p.val)) := rfl
  refine ⟨_, exec_schedule_of_accepted hsteady hi hidle hfields hresolve hclaim rfl tag, ?_⟩
  have hentry := State.place_after_entry ({ s with lanes := ls } : State) hne
  refine ⟨(hentry i).trans ?_, (hentry p).trans (if_pos rfl), fun x hx => (hentry x).trans ?_, hlanes, rfl, rfl, rfl,
    ⟨rfl, rfl, rfl, rfl⟩, ⟨rfl, rfl, rfl⟩, rfl⟩
  · exact (if_neg hne.symm).trans (if_pos rfl)
  · simp only [List.mem_cons, List.not_mem_nil, or_false, not_or] at hx
    exact (if_neg hx.2).trans (if_neg hx.1)

end Sys2Proof.Machine
end

section
/-! SUPPORT. AMEND on a steady part (R54 to R57, R159): the fields a mask names, and the record of a PENDING and of a RUNNING
entry that an accepted one leaves. -/

namespace Sys2Proof.Machine

/-- A field that a mask names takes its new value, and another keeps the one it has (R159). -/
theorem getD_ite_some {α : Type} (named : Bool) (new old : α) :
    (if named then some new else none).getD old = if named then new else old := by
  cases named <;> rfl

/-- The programme that an AMEND of a PENDING entry leaves (R55). -/
theorem Entry.amendedProgramme_amendmentOf (r : Entry) (mask : Byte) (delay width period : Ticks) (count : Count) :
    r.amendedProgramme (amendmentOf mask delay width period count) = { r.prog with
      delay := if mask.getLsbD 0 then delay else r.prog.delay
      width := if mask.getLsbD 1 then width else r.prog.width
      period := if mask.getLsbD 2 then period else r.prog.period
      count := if mask.getLsbD 3 then count else r.prog.count } := by
  simp only [Entry.amendedProgramme, Programme.retimed, Programme.recounted, amendmentOf, getD_ite_some]

/-- The programme in force with N written (R56). -/
theorem Programme.recounted_amendmentOf (p : Programme) (mask : Byte) (delay width period : Ticks) (count : Count) :
    p.recounted (amendmentOf mask delay width period count).count =
      { p with count := if mask.getLsbD 3 then count else p.count } := by
  simp only [Programme.recounted, amendmentOf, getD_ite_some]

/-- The values staged after an AMEND: those it names, over those staged earlier (R56). -/
theorem Staged.merge_amendmentOf (st : Staged) (mask : Byte) (delay width period : Ticks) (count : Count) :
    st.merge (amendmentOf mask delay width period count) =
      ⟨if mask.getLsbD 0 then some delay else st.delay, if mask.getLsbD 1 then some width else st.width,
        if mask.getLsbD 2 then some period else st.period⟩ := by
  have hover : ∀ (named : Bool) (new : Ticks) (old : Option Ticks),
      ((if named then some new else Option.none) <|> old) = if named then some new else old := by
    intro named new old
    cases named <;> rfl
  simp only [Staged.merge, amendmentOf, hover]

/-- The kind of run changes exactly where one of the two counts is 1 and the other is not (R56). -/
theorem Entry.changesKind_amendmentOf (r : Entry) (mask : Byte) (delay width period : Ticks) (count : Count) :
    r.changesKind (amendmentOf mask delay width period count) = true ↔
      ¬ ((if mask.getLsbD 3 then count else r.prog.count) = 1 ↔ r.prog.count = 1) := by
  unfold Entry.changesKind amendmentOf
  rcases mask.getLsbD 3 with _ | _
  · simp
  · by_cases hn : count = 1 <;> by_cases hr : r.prog.count = 1 <;> simp [hn, hr]

/-- The run is shortened where the N written is at or below `cycles done` (R57). -/
theorem Entry.shortened_amendmentOf (r : Entry) (mask : Byte) (delay width period : Ticks) (count : Count) :
    r.shortened (amendmentOf mask delay width period count) =
      if mask.getLsbD 3 = true ∧ (if mask.getLsbD 3 then count else r.prog.count) ≠ 0 ∧
          (if mask.getLsbD 3 then count else r.prog.count).toNat ≤ r.cyclesDone.toNat
      then (if mask.getLsbD 3 then count else r.prog.count) - 1 else r.cyclesDone := by
  unfold Entry.shortened amendmentOf
  rcases mask.getLsbD 3 with _ | _ <;> simp

/-! ### The request -/

section Request

variable {s : State} {e : Byte} {i : Fin 64} (hi : i.val = e.toNat) (mask : Byte) (delay width period : Ticks) (count : Count)
include hi

/-- AMEND of an entry that is neither PENDING nor RUNNING is refused (R54). -/
theorem reqAmend_of_other (hp : (s.entry i).state ≠ .pending) (hr : (s.entry i).state ≠ .running) :
    reqAmend e mask delay width period count s = (s, .refusal .entryState) :=
  (withEntry_of_eq hi _ _).trans ((if_neg hp).trans (if_neg hr))

/-- AMEND of a PENDING entry (R55). -/
theorem reqAmend_of_pending (hp : (s.entry i).state = .pending) :
    reqAmend e mask delay width period count s =
      let p := (s.entry i).amendedProgramme (amendmentOf mask delay width period count)
      if mask = 0 then (s, .ok)
      else if 16 ≤ mask.toNat then (s, .refusal .paramRange)
      else if p.Lawful then (s.setEntry i { s.entry i with prog := p }, .ok)
      else (s, .refusal .paramRange) := by
  refine (withEntry_of_eq hi _ _).trans ((if_pos hp).trans ?_)
  simp only [Programme.valid_iff]

/-- AMEND of a RUNNING entry: the two programmes it must leave valid are the one in force and the one from the next START
(R56). -/
theorem reqAmend_of_running (hr : (s.entry i).state = .running) :
    reqAmend e mask delay width period count s =
      let r := s.entry i
      let a := amendmentOf mask delay width period count
      if mask = 0 then (s, .ok)
      else if 16 ≤ mask.toNat ∨ r.changesKind a = true ∨ ¬ (r.prog.recounted a.count).Lawful ∨
          ¬ (Programme.recounted (Entry.progWithStaged { r with staged := r.staged.merge a }) a.count).Lawful then
        (s, .refusal .paramRange)
      else (s.setEntry i (r.amendRunning a), .ok) := by
  have hp : (s.entry i).state ≠ .pending := by simp [hr]
  refine (withEntry_of_eq hi _ _).trans ((if_neg hp).trans ((if_pos hr).trans ?_))
  have hvalid : ∀ a, (s.entry i).amendValid a = true ↔ ((s.entry i).prog.recounted a.count).Lawful ∧
      (Programme.recounted (Entry.progWithStaged { s.entry i with staged := (s.entry i).staged.merge a }) a.count).Lawful := by
    intro a
    rw [← Programme.valid_iff, ← Programme.valid_iff]
    exact Bool.and_eq_true_iff
  simp only [hvalid]
  split_ifs <;> tauto

end Request

/-- A check of a request on a steady part: where it decides, its answer is the one given; otherwise the request goes on. -/
theorem request_answered_ite {s t u : State} (h : s.Steady) {c : Instr} {own : State → State × Answer} {a : Answer} {p : Prop}
    [Decidable p] {rest : State × Answer} (hown : own s = if p then (t, a) else rest)
    (hrest : own s = rest → s.request c own = u) : s.request c own = if p then t.answered c a else u := by
  by_cases hp : p
  · rw [if_pos hp] at hown ⊢
    exact request_answered h hown
  · rw [if_neg hp] at hown ⊢
    exact hrest hown

/-- Settles O39: of a PENDING entry the named values are written where the programme they leave is valid, which is R18. -/
theorem amendOfAPendingEntry : Obligations.AmendOfAPendingEntry := by
  unfold Obligations.AmendOfAPendingEntry
  intro s tag e mask delay width period count hsteady
  refine ⟨fun he => congrArg Host.Outcome.next (request_answered hsteady (withEntry_of_large he _ _)), fun i hi => ?_⟩
  refine ⟨fun hstate => ?_, fun hpending => ?_⟩ <;> refine congrArg Host.Outcome.next ?_
  · refine request_answered hsteady (reqAmend_of_other hi _ _ _ _ _ ?_ ?_) <;> rcases hstate with h | h | h | h <;> simp [h]
  · have hown := reqAmend_of_pending hi mask delay width period count hpending
    rw [Entry.amendedProgramme_amendmentOf] at hown
    exact request_answered_ite hsteady hown fun hown => request_answered_ite hsteady hown fun hown =>
      request_answered_ite hsteady hown fun hown => request_answered hsteady hown

/-- Settles O40: the two programmes an AMEND of a RUNNING entry is judged by are the one in force and the one of the next
START. -/
theorem amendOfARunningEntry : Obligations.AmendOfARunningEntry := by
  unfold Obligations.AmendOfARunningEntry
  intro s tag e mask delay width period count i hsteady hi hrunning
  have hown := reqAmend_of_running hi mask delay width period count hrunning
  simp only [Entry.amendRunning, Entry.changesKind_amendmentOf, Entry.shortened_amendmentOf, Staged.merge_amendmentOf,
    Programme.recounted_amendmentOf] at hown
  exact congrArg Host.Outcome.next (request_answered_ite hsteady hown fun hown =>
    request_answered_ite hsteady hown fun hown => request_answered hsteady hown)

end Sys2Proof.Machine
end

section
/-! SUPPORT. CANCEL on a steady part (R62): a retirement that breaks the chain behind its entry, unit by unit. -/

namespace Sys2Proof.Machine

/-! ### The lane of an entry that retires (R103) -/

/-- The lane that an entry owns has no claim after a release that no hand-off takes (R103). -/
theorem Lane.released_of_owner {l : Lane} {e : Fin 64} (h : l.owner = some e) :
    l.released e none = { l with owner := none, call := .inactive, heir := none } := by
  rw [Lane.released, if_pos h, if_neg fun c => c.1 c.2]

/-- The lane that an entry owns goes idle at its retirement (R28, R103). -/
theorem State.retireOne_laneGoesIdle {s : State} {e : Fin 64} (oc : EntryOutcome) (h : (s.entry e).scheduled = true) :
    s.LaneGoesIdle (s.retireOne e oc none) e := by
  refine ⟨fun l hl ho => ?_, (s.retireOne_frame e oc none).lanes⟩
  rw [s.retireOne_lane oc none h, if_pos hl, Lane.released_of_owner ho]
  exact ⟨rfl, rfl, rfl⟩

/-- A retirement changes the entry's record and its predecessor's alone (R27). -/
theorem State.retireOne_sameEntriesBut (s : State) (e : Fin 64) (oc : EntryOutcome) (taker : Option (Fin 64)) :
    s.SameEntriesBut (s.retireOne e oc taker) (e :: (s.entry e).predecessor.toList) := by
  intro x hx
  obtain ⟨hxe, hxp⟩ := not_or.mp (mt List.mem_cons.mpr hx)
  have hp : (s.entry e).predecessor ≠ some x := by simpa using hxp
  simp only [s.retireOne_entry_ne oc taker hxe, s.unlinkPredecessor_entry, hp, false_and, if_false, ite_self]

/-! ### A retirement that breaks a chain (R28, R122) -/

section Broken

variable {s : State} {e : Fin 64} (oc : EntryOutcome) (h : (s.entry e).scheduled = true)
include h

/-- Such a retirement is the entry's own, and then the break of the chain behind it. -/
theorem State.retireBroken_of_scheduled : s.retireBroken e oc = (s.retireOne e oc none).breakBehind e := if_pos h

/-- It is an event that retires the one entry and breaks the chain behind it. -/
theorem State.retireBroken_walking : s.Walking [e] oc [] none (s.retireBroken e oc) := by
  rw [State.retireBroken_of_scheduled oc h]
  exact s.walking_of_retireAll [e] oc

/-- The entry's record is what R27 says, and its claims are released (R27, R28). -/
theorem State.retireBroken_retired :
    (s.entry e).RetiredAs ((s.retireBroken e oc).entry e) oc s.now ∧ (s.retireBroken e oc).Released e :=
  (State.retireBroken_walking oc h).hit_retired List.mem_cons_self h

/-- The chain behind the entry is broken to its tail, and the lanes of entries not retired stand (R122, R123). -/
theorem State.retireBroken_chainBroken : s.ChainBroken (s.retireBroken e oc) e := by
  have hw := State.retireBroken_walking oc h
  refine ⟨?_, hw.breaking.lanes⟩
  have hc := hw.chainsBroken
  simpa only [List.mem_singleton] using hc

/-- The lane that the entry owns goes idle, and stays so while the chain behind it breaks (R28, R103). -/
theorem State.retireBroken_laneGoesIdle : s.LaneGoesIdle (s.retireBroken e oc) e := by
  refine ⟨fun l hl ho => ?_, (s.retireBroken_frame e oc).lanes⟩
  obtain ⟨howner, hheir, hcall⟩ := (State.retireOne_laneGoesIdle oc h).1 l hl ho
  have hgone : ((s.retireOne e oc none).entry e).scheduled = false := by
    rw [s.retireOne_scheduled oc none, if_pos rfl]
  have hagain := (s.retireOne e oc none).walking_of_retireAll [e] oc
  rw [List.foldl_cons, List.foldl_nil, List.foldl_cons, List.foldl_nil,
    State.retireOne_of_not_scheduled _ oc none hgone, ← State.retireBroken_of_scheduled oc h] at hagain
  have hstands : (s.retireBroken e oc).lane l = (s.retireOne e oc none).lane l :=
    hagain.breaking.lanes l fun x hx => by
      rcases hx with hx | hx
      · cases howner.symm.trans hx
      · cases hheir.symm.trans hx
  rw [hstands]
  exact ⟨howner, hheir, hcall⟩

/-- Where no chain stands behind the entry, no other record changes but its predecessor's (R27). -/
theorem State.retireBroken_sameEntriesBut (hs : (s.entry e).successor = none) :
    s.SameEntriesBut (s.retireBroken e oc) (e :: (s.entry e).predecessor.toList) := by
  have hnone : ((s.retireOne e oc none).entry e).successor = none :=
    (s.retireOne_successor (e := e) oc none e).elim (fun c => c.trans hs) And.left
  have halone : s.retireBroken e oc = s.retireOne e oc none := by
    rw [State.retireBroken_of_scheduled oc h, State.breakBehind, hnone]
  rw [halone]
  exact s.retireOne_sameEntriesBut e oc none

end Broken

/-- Settles O43: CANCEL of a scheduled entry is a retirement that breaks the chain behind it. -/
theorem cancelRetiresAtOnce : Obligations.CancelRetiresAtOnce := by
  unfold Obligations.CancelRetiresAtOnce
  intro s tag e i hsteady hi hsch
  have hown : reqCancel e s = (s.retireBroken i .cancelled, .ok) := (withEntry_of_eq hi _ _).trans (if_pos hsch)
  have hframe := s.retireBroken_frame i .cancelled
  obtain ⟨htime, htrips, -, hlink, -, -⟩ := hframe.outside
  obtain ⟨hretired, hreleased⟩ := State.retireBroken_retired .cancelled hsch
  refine ⟨_, congrArg Host.Outcome.next (request_answered hsteady hown), hretired, hreleased,
    State.retireBroken_laneGoesIdle _ hsch, State.retireBroken_chainBroken _ hsch, s.retireBroken_strobes i _, htime, htrips,
    hframe.filters, ?_, State.retireBroken_sameEntriesBut _ hsch⟩
  rw [State.answered, State.setBuffer_link, hlink]
  rfl

end Sys2Proof.Machine
end

section
/-! SUPPORT. One action of an entry (R43): the item that is handed over, and what follows the writing of the entry's record, said
once for every action. -/

namespace Sys2Proof.Machine

/-! ### Offsets and instants of a cycle (R38, R39, R67) -/

/-- The smallest candidate above an offset is a candidate above it. -/
theorem leastAbove_some {o m : Nat} {l : List Nat} (h : leastAbove o l = some m) : o < m ∧ m ∈ l := by
  induction l generalizing m with
  | nil => cases h
  | cons c rest ih =>
    unfold leastAbove at h
    split at h
    · next hc =>
      rcases hr : leastAbove o rest with _ | k <;> rw [hr] at h <;> cases h
      · exact ⟨hc, List.mem_cons_self⟩
      · obtain ⟨hk, hm⟩ := ih hr
        refine ⟨Nat.lt_min.mpr ⟨hc, hk⟩, ?_⟩
        change min c k ∈ c :: rest
        rcases Nat.le_total c k with hle | hle
        · rw [Nat.min_eq_left hle]
          exact List.mem_cons_self
        · rw [Nat.min_eq_right hle]
          exact List.mem_cons_of_mem c hm
    · exact (ih h).imp_right (List.mem_cons_of_mem c)

/-- The next offset of a cycle is no earlier, and lies within the longest cycle of all (R18, R39). -/
theorem Programme.nextOffset_bounds (p : Programme) {o : Nat} (ho : o < 2 ^ 25) :
    o ≤ p.nextOffset o ∧ p.nextOffset o < 2 ^ 25 := by
  unfold Programme.nextOffset
  rcases h : leastAbove o p.candidates with _ | m
  · exact ⟨Nat.le_refl o, ho⟩
  · obtain ⟨hlt, hm⟩ := leastAbove_some h
    refine ⟨Nat.le_of_lt hlt, ?_⟩
    have hd := p.delay.isLt
    have hw := p.width.isLt
    have hp := p.period.isLt
    unfold Programme.candidates Programme.inactiveAt at hm
    split at hm <;> simp only [List.mem_cons, List.not_mem_nil, or_false] at hm <;> dsimp only [Option.getD_some] <;> omega

/-- A cycle of a valid programme ends after its START (R18, R44). -/
theorem Programme.Lawful.lastOffset_pos {p : Programme} (h : p.Lawful) : 0 < p.lastOffset := by
  unfold Programme.Lawful at h
  unfold Programme.lastOffset
  split at h
  · next hc => rw [if_pos hc]; exact h
  · next hc => rw [if_neg hc]; exact h.1

/-- The offset of a cycle's end lies within the longest cycle of all. -/
theorem Programme.lastOffset_lt (p : Programme) : p.lastOffset < 2 ^ 25 := by
  have hd := p.delay.isLt
  have hw := p.width.isLt
  have hp := p.period.isLt
  unfold Programme.lastOffset
  split <;> omega

/-- A cycle of a valid programme ends in phase REST (R40). -/
theorem Programme.Lawful.phaseOf_lastOffset {p : Programme} (h : p.Lawful) : p.phaseOf p.lastOffset = .rest := by
  unfold Programme.Lawful at h
  unfold Programme.phaseOf Programme.lastOffset
  split at h
  · next hc => rw [if_pos hc, if_pos (by omega), if_neg (by omega)]
  · next hc => rw [if_neg hc, if_pos (by omega), if_neg (by omega)]

/-- An instant that follows, within one cycle, one that is at most 255 ticks late is no later than that (R6). -/
theorem lateness_add_le {x now : Instant} (h : (now - x).toNat ≤ 255) {k : Nat} (hk : k < 2 ^ 25) :
    lateness (x + BitVec.ofNat 32 k) now ≤ 255 := by
  have hforward : x + BitVec.ofNat 32 k - now = BitVec.ofNat 32 k - (now - x) := by ring
  have hback : now - (x + BitVec.ofNat 32 k) = now - x - BitVec.ofNat 32 k := by ring
  have hk32 : (BitVec.ofNat 32 k).toNat = k := (BitVec.toNat_ofNat k 32).trans (Nat.mod_eq_of_lt (by omega))
  unfold lateness isPast
  rw [hforward, hback]
  generalize now - x = late at h ⊢
  clear hforward hback
  split
  · next hpast =>
    rw [decide_eq_true_eq, BitVec.toNat_sub, hk32] at hpast
    rw [BitVec.toNat_sub, hk32]
    omega
  · exact Nat.zero_le _

/-! ### The item handed over (R72, R73) -/

/-- The dispatch hands over the item that `State.Hands` names (R70 to R73). -/
theorem State.Hands.nextItem {s : State} {d : DispatchWork} {i : DueItem} (h : s.Hands d i) : s.nextItem = some i := by
  obtain ⟨-, hd, hcap, hhead, hfirst, hlate⟩ := h
  have hover : s.overdueHead = none := by
    unfold State.overdueHead
    rcases hl : s.due with _ | ⟨j, rest⟩
    · rfl
    · exact if_neg (Nat.not_lt.mpr (hhead j (by rw [hl]; rfl)))
  have hbefore : atOrBefore i.due s.now = true := by
    unfold atOrBefore isPast
    simp only [Bool.or_eq_true, decide_eq_true_eq]
    bv_omega
  have hkept : lateness i.due s.now ≤ 255 := by
    have := lateness_add_le hlate (k := 0) (by decide)
    simpa using this
  simp only [State.nextItem, hd]
  rw [if_pos ⟨hcap, hover⟩, DispatchWork.examined, ← List.head?_filter, hfirst, Option.filter_some_pos]
  simp [hbefore, hkept, Config.overrunLimit]

/-- The part as an action finds it: the dispatch has recorded the entry, and the item is out of the due list (R72, R74). -/
def State.handing (s : State) (d : DispatchWork) (i : DueItem) : State :=
  (s.setDispatch (some (d.hand i.entry (s.entry i.entry).successor))).removeDue i.entry

@[simp] theorem State.handing_entry (s : State) (d : DispatchWork) (i : DueItem) (e : Fin 64) :
    (s.handing d i).entry e = s.entry e := rfl

/-- ACTION takes the action of the entry whose item the dispatch hands over, and records it (R43, R72, R74). -/
theorem State.Hands.exec_action {s : State} {d : DispatchWork} {i : DueItem} (h : s.Hands d i) :
    exec .action s = .next
      ((s.setDispatch (some (d.hand i.entry (s.entry i.entry).successor))).takeAction i.entry i.due) := by
  refine congrArg Host.Outcome.next ?_
  have hd := h.2.1
  rw [State.whenRunning, h.1, if_neg Bool.false_ne_true, State.actionOne, h.nextItem, hd]

/-- ACTION of a RUNNING or DRAINING entry (R43, R72). -/
theorem State.Hands.exec_action_of_running {s : State} {d : DispatchWork} {i : DueItem} (h : s.Hands d i)
    (hr : (s.entry i.entry).state = .running ∨ (s.entry i.entry).state = .draining) :
    exec .action s = .next ((s.handing d i).actRunning i.entry i.due) := by
  refine h.exec_action.trans (congrArg Host.Outcome.next ?_)
  have he : ((s.handing d i).entry i.entry).state = (s.entry i.entry).state := rfl
  unfold State.takeAction
  dsimp only
  rw [← State.handing]
  rcases hr with hr | hr <;> rw [he, hr]

/-- ACTION that takes the START of a run: one begun at the due instant, of a PENDING entry, or one begun by an edge (R47,
R48). -/
theorem State.Hands.exec_action_of_start {s : State} {d : DispatchWork} {i : DueItem} (h : s.Hands d i)
    (hr : (s.entry i.entry).state = .pending ∨
      (((s.entry i.entry).state = .running ∨ (s.entry i.entry).state = .draining) ∧ i.due = (s.entry i.entry).cycleStart)) :
    ∃ r, exec .action s = .next ((s.handing d i).actStart i.entry r i.due) ∧ r = { s.entry i.entry with
      state := if (s.entry i.entry).state = .pending then .running else (s.entry i.entry).state
      cycleStart := i.due
      cyclesDone := if (s.entry i.entry).state = .pending then 0 else (s.entry i.entry).cyclesDone
      phase := r.phase
      nextInstant := r.nextInstant } := by
  rcases hr with hr | ⟨hr, hdue⟩
  · refine ⟨(s.entry i.entry).beginRun i.due, h.exec_action.trans (congrArg Host.Outcome.next ?_), ?_⟩
    · have he : ((s.handing d i).entry i.entry).state = .pending := hr
      unfold State.takeAction
      dsimp only
      rw [← State.handing, he, State.handing_entry]
    · rw [if_pos hr, if_pos hr]
      rfl
  · have hp : (s.entry i.entry).state ≠ .pending := by rcases hr with hr | hr <;> simp [hr]
    have h0 : (i.due - ((s.handing d i).entry i.entry).cycleStart).toNat = 0 := by simp [hdue]
    refine ⟨s.entry i.entry, (h.exec_action_of_running hr).trans ?_, ?_⟩
    · rw [State.actRunning, if_pos h0, State.handing_entry]
    · rw [if_neg hp, if_neg hp, hdue]

end Sys2Proof.Machine
end

section
/-! SUPPORT. What follows the writing of an entry's record in a start or an action (R43 steps 4, 5 and 7, R49): its level, its
strobe request and its item. -/

namespace Sys2Proof.Machine

/-! ### The strobe request (R46, R109, R111) -/

section Strobe

variable {s s' t t' u : State} {e : Fin 64} {a b : Bool}

/-- What a served strobe point leaves rests on the strobe lines, the entry's strobe and its flag alone. -/
theorem State.StrobeServed.congr (h : s.StrobeServed t e b) (hs : s'.strobes = s.strobes) (ht : t'.strobes = t.strobes)
    (hp : (s'.entry e).prog.strobe = (s.entry e).prog.strobe)
    (hf : (s'.entry e).flags.strobeMerged = (s.entry e).flags.strobeMerged)
    (hf' : (t'.entry e).flags.strobeMerged = (t.entry e).flags.strobeMerged) : s'.StrobeServed t' e b := by
  have hk : ∀ k, s'.strobe k = s.strobe k := fun k => by rw [State.strobe, State.strobe, hs]
  have hk' : ∀ k, t'.strobe k = t.strobe k := fun k => by rw [State.strobe, State.strobe, ht]
  unfold State.StrobeServed at h ⊢
  simpa only [hk, hk', hp, hf, hf'] using h

/-- A strobe point that is not served changes no strobe line and no flag. -/
theorem State.strobeServed_false_iff :
    s.StrobeServed t e false ↔
      t.strobes = s.strobes ∧ (t.entry e).flags.strobeMerged = (s.entry e).flags.strobeMerged := by
  simp only [State.StrobeServed, Bool.false_eq_true, false_and, if_false, Bool.false_and, Bool.or_false]
  exact and_congr_left fun _ => ⟨fun h => State.strobes_ext h, fun h k => by rw [State.strobe, State.strobe, h]⟩

/-- One request at most of two points served (R46). -/
theorem State.StrobeServed.once (h : s.StrobeServed u e a) (k : u.StrobeServed t e (!a && b))
    (hp : (u.entry e).prog.strobe = (s.entry e).prog.strobe) : s.StrobeServed t e (a || b) := by
  cases a with
  | false =>
    obtain ⟨hs, hf⟩ := State.strobeServed_false_iff.mp h
    exact k.congr hs.symm rfl hp.symm hf.symm rfl
  | true =>
    obtain ⟨hs, hf⟩ := State.strobeServed_false_iff.mp k
    exact h.congr rfl hs rfl rfl hf

/-- The strobe lines and the flag after the request of an entry. -/
theorem State.serveStrobe_served (s : State) (e : Fin 64) (b : Bool) : s.StrobeServed (s.serveStrobe e b) e b := by
  refine ⟨fun k => ?_, ?_⟩
  · rw [s.serveStrobe_strobe]
    split
    · rfl
    · rfl
  rw [s.serveStrobe_entry]
  rcases (s.entry e).prog.strobe with _ | u
  · simp
  · by_cases hb : b = true ∧ (s.strobe u.line).remaining ≠ 0
    · simp [hb, Entry.strobeMerged]
    · cases b <;> simp_all

/-- A request writes STROBE_MERGED of its own entry alone (R111). -/
theorem State.serveStrobe_record (s : State) (e : Fin 64) (b : Bool) :
    (s.serveStrobe e b).entry e = { s.entry e with
      flags := { (s.entry e).flags with strobeMerged := ((s.serveStrobe e b).entry e).flags.strobeMerged } } := by
  rw [s.serveStrobe_entry]
  split <;> rfl

theorem State.serveStrobe_others (s : State) (e : Fin 64) (b : Bool) : s.SameEntriesBut (s.serveStrobe e b) [e] :=
  fun x hx => by
    have hne : x ≠ e := fun c => hx (c ▸ List.mem_singleton_self e)
    simp only [s.serveStrobe_entry, hne, false_and, if_false]

end Strobe

/-! ### The due list and the lanes -/

section Units

variable {s t : State} {e : Fin 64}

/-- An item already taken out makes no difference to what becomes of an entry's item (R43 step 7). -/
theorem State.ItemBecomes.of_removeDue {x : Option Instant} (h : (s.removeDue e).ItemBecomes t e x) : s.ItemBecomes t e x := by
  obtain ⟨hothers, hown⟩ := h
  refine ⟨hothers.trans ?_, hown⟩
  rw [State.removeDue_due, List.filter_filter]
  simp only [Bool.and_self]

/-- The item of an entry has left the list (R69). -/
theorem State.itemBecomes_none (h : t.due = s.due.filter fun i => decide (i.entry ≠ e)) : s.ItemBecomes t e none := by
  refine ⟨?_, ?_⟩ <;> rw [h, List.filter_filter]
  · simp only [Bool.and_self]
  · refine List.filter_eq_nil_iff.mpr fun i _ => ?_
    simp

/-- An item no more than 255 ticks late is kept (R67). -/
theorem State.insertItem_of_kept (h : lateness (s.entry e).nextInstant s.now ≤ 255) : s.insertItem e = s.joinDue e :=
  if_neg (Nat.not_lt.mpr h)

end Units

/-! ### A record written, and what follows it -/

/-- What follows the writing of record `r` of entry `e`, up to its item: the level it calls for, and its strobe request where its
point is served (R43 steps 4 and 5). -/
def State.writeAndServe (s : State) (e : Fin 64) (r : Entry) (served : Bool) : State :=
  ((s.setEntry e r).handLevel e r.callLevel).serveStrobe e served

/-- What follows a record written is that, and then its item (R43 step 7). -/
theorem State.setEntry_follow (s : State) (e : Fin 64) (r : Entry) (served : Bool) :
    (s.setEntry e r).follow e served = (s.writeAndServe e r served).insertItem e := by
  rw [State.follow, State.entry_setEntry_self]
  rfl

/-- Up to the item, the entries, the lanes and the strobe lines alone change. -/
theorem State.writeAndServe_eq (s : State) (e : Fin 64) (r : Entry) (served : Bool) :
    ∃ es ls ks, s.writeAndServe e r served = { s with entries := es, lanes := ls, strobes := ks } := by
  obtain ⟨ls, hls⟩ := (s.setEntry e r).handLevel_eq e r.callLevel
  obtain ⟨es, ks, hks⟩ := ((s.setEntry e r).handLevel e r.callLevel).serveStrobe_eq e served
  exact ⟨es, ls, ks, by rw [State.writeAndServe, hks, hls]; rfl⟩

/-- `t` is what the writing of record `r` of entry `e`, its level and its strobe request leave of `s`: the record, the strobe
request, the level, and no other entry changed. -/
structure State.Written (s t : State) (e : Fin 64) (r : Entry) (served : Bool) : Prop where
  record : t.entry e = { r with flags := { r.flags with strobeMerged := (t.entry e).flags.strobeMerged } }
  strobe : s.StrobeServed t e served
  call : s.CallBecomes t e r.phase.call
  others : s.SameEntriesBut t [e]
  frame : s.RunFrame t

/-- A record that names the lane, the strobe and the flag it had is written, with its level and its request. -/
theorem State.written_of_same {s : State} {e : Fin 64} {r : Entry} (served : Bool)
    (hlane : r.prog.lane = (s.entry e).prog.lane) (hstrobe : r.prog.strobe = (s.entry e).prog.strobe)
    (hflag : r.flags.strobeMerged = (s.entry e).flags.strobeMerged) : s.Written (s.writeAndServe e r served) e r served := by
  obtain ⟨ls, hls⟩ := (s.setEntry e r).handLevel_eq e r.callLevel
  have hlevel := (s.setEntry e r).handLevel_lane e r.callLevel
  have hframe := (s.setEntry_frame e r).trans ((State.handLevel_frame _ e r.callLevel).trans (State.serveStrobe_frame _ e served))
  rw [hls] at hlevel hframe
  rw [State.writeAndServe, hls]
  have hself : ({ s.setEntry e r with lanes := ls } : State).entry e = r := s.entry_setEntry_self e r
  have hrec := ({ s.setEntry e r with lanes := ls } : State).serveStrobe_record e served
  rw [hself] at hrec
  refine ⟨hrec, ?_, fun l => ?_, fun x hx => ?_, hframe⟩
  · refine (({ s.setEntry e r with lanes := ls } : State).serveStrobe_served e served).congr rfl rfl ?_ ?_ rfl <;> rw [hself]
    · exact hstrobe.symm
    · exact hflag.symm
  · obtain ⟨es, ks, hv⟩ := ({ s.setEntry e r with lanes := ls } : State).serveStrobe_eq e served
    rw [hv]
    refine (hlevel l).trans ?_
    rw [State.entry_setEntry_self, hlane, Entry.callLevel_eq]
    rfl
  · exact (State.serveStrobe_others _ e served x hx).trans
      (s.entry_setEntry_ne r fun c => hx (c ▸ List.mem_singleton_self e))

/-- `t` is what the writing of record `r` of entry `e`, and what follows it, leave of `s`, where the item is kept. -/
structure State.Followed (s t : State) (e : Fin 64) (r : Entry) (served : Bool) : Prop extends s.Written t e r served where
  item : s.ItemBecomes t e (some r.nextInstant)
  lines : t.lines = s.lines

/-- A record that names the lane, the strobe and the flag it had, is followed by its level, its request and its item. -/
theorem State.followed_of_kept {s : State} {e : Fin 64} {r : Entry} (served : Bool)
    (hlane : r.prog.lane = (s.entry e).prog.lane) (hstrobe : r.prog.strobe = (s.entry e).prog.strobe)
    (hflag : r.flags.strobeMerged = (s.entry e).flags.strobeMerged) (hkept : lateness r.nextInstant s.now ≤ 255) :
    s.Followed ((s.setEntry e r).follow e served) e r served := by
  have hw := State.written_of_same served hlane hstrobe hflag
  obtain ⟨es, ls, ks, hv⟩ := s.writeAndServe_eq e r served
  rw [State.setEntry_follow, hv]
  rw [hv] at hw
  have hnext : (({ s with entries := es, lanes := ls, strobes := ks } : State).entry e).nextInstant = r.nextInstant := by
    rw [hw.record]
  have hitem := ({ s with entries := es, lanes := ls, strobes := ks } : State).joinDue_itemBecomes e
  rw [State.insertItem_of_kept (by rw [hnext]; exact hkept)]
  rw [hnext] at hitem
  exact ⟨⟨hw.record, hw.strobe, hw.call, hw.others, hw.frame.trans (State.joinDue_frame _ e)⟩, hitem, rfl⟩

end Sys2Proof.Machine
end

section
/-! SUPPORT. ACTION while a run goes on (R39 to R48): the START of a run, the instants inside a cycle, and the END that begins
the next cycle. -/

namespace Sys2Proof.Machine

/-! ### The records that an action writes -/

/-- The record after a START: the staged values first, and then the instants at offset 0 (R39, R40, R45). -/
theorem Entry.takeStart_eq (r : Entry) (hp : r.progWithStaged.Lawful) :
    r.takeStart = { r with
      prog := r.progWithStaged
      staged := Staged.none
      phase := r.progWithStaged.phaseOf 0
      nextInstant := r.cycleStart + BitVec.ofNat 32 (r.progWithStaged.offsetAfter 0) } := by
  rw [← Programme.nextOffset_eq hp hp.lastOffset_pos, ← Programme.phaseAt_eq]
  rfl

/-- The record of a START that an action takes (R7). -/
theorem Entry.takeStart_raiseSkew (r : Entry) (hp : r.progWithStaged.Lawful) (now t : Instant) :
    r.takeStart.raiseSkew (skewOf now t) = { r with
      prog := r.progWithStaged
      staged := Staged.none
      phase := r.progWithStaged.phaseOf 0
      nextInstant := r.cycleStart + BitVec.ofNat 32 (r.progWithStaged.offsetAfter 0)
      worstSkew := r.skewAfter now t } := by
  rw [← Entry.raiseSkew_eq, r.takeStart_eq hp]
  rfl

/-- The record of an action inside a cycle (R39, R40). -/
theorem Entry.atOffset_raiseSkew (r : Entry) (hp : r.prog.Lawful) {o : Nat} (ho : o < r.prog.lastOffset) (now t : Instant) :
    (r.atOffset o).raiseSkew (skewOf now t) = { r with
      phase := r.prog.phaseOf o
      nextInstant := r.cycleStart + BitVec.ofNat 32 (r.prog.offsetAfter o)
      worstSkew := r.skewAfter now t } := by
  rw [← Programme.nextOffset_eq hp ho, ← Programme.phaseAt_eq, ← Entry.raiseSkew_eq]
  rfl

/-- A counted cycle, as a number (R44). -/
theorem Entry.countCycle_eq (r : Entry) :
    r.countCycle = { r with cyclesDone := BitVec.ofNat 16 (min 65535 (r.cyclesDone.toNat + 1)) } := by
  rw [show (65535 : Nat) = 2 ^ 16 - 1 from rfl, ← satSucc_eq_min]
  rfl

/-! ### What follows in an action -/

/-- A START taken by an action, and what follows it (R43, R48). -/
theorem State.actStart_followed {s : State} {e : Fin 64} {r : Entry} (hprog : r.prog = (s.entry e).prog)
    (hflags : r.flags = (s.entry e).flags) (hp : r.progWithStaged.Lawful) (hlate : (s.now - r.cycleStart).toNat ≤ 255)
    (t : Instant) :
    s.Followed (s.actStart e r t) e { r with
      prog := r.progWithStaged
      staged := Staged.none
      phase := r.progWithStaged.phaseOf 0
      nextInstant := r.cycleStart + BitVec.ofNat 32 (r.progWithStaged.offsetAfter 0)
      worstSkew := r.skewAfter s.now t } (r.progWithStaged.pointServed 0 true) := by
  have hlane : r.prog.lane = (s.entry e).prog.lane := congrArg Programme.lane hprog
  have hstrobe : r.prog.strobe = (s.entry e).prog.strobe := congrArg Programme.strobe hprog
  have hb := r.progWithStaged.nextOffset_bounds (o := 0) (by decide)
  rw [Programme.nextOffset_eq hp hp.lastOffset_pos] at hb
  rw [State.actStart, Entry.serves_eq, Entry.takeStart_raiseSkew r hp]
  exact State.followed_of_kept _ hlane hstrobe (congrArg EntryFlags.strobeMerged hflags) (lateness_add_le hlate hb.2)

/-- The instants inside a cycle taken by an action, and what follows them (R43). -/
theorem State.actInside_followed {s : State} {e : Fin 64} {r : Entry} (hr : s.entry e = r) {t : Instant} {o : Nat}
    (hp : r.prog.Lawful) (ho : (t - r.cycleStart).toNat = o) (hlast : o < r.prog.lastOffset)
    (hlate : (s.now - t).toNat ≤ 255) :
    s.Followed (s.actInside e r t o) e { r with
      phase := r.prog.phaseOf o
      nextInstant := r.cycleStart + BitVec.ofNat 32 (r.prog.offsetAfter o)
      worstSkew := r.skewAfter s.now t } (r.prog.pointServed o false) := by
  subst hr
  have hb := (s.entry e).prog.nextOffset_bounds (hlast.trans (Programme.lastOffset_lt _))
  rw [Programme.nextOffset_eq hp hlast] at hb
  obtain ⟨k, hk⟩ := Nat.exists_eq_add_of_le hb.1
  have hnext : (s.entry e).cycleStart + BitVec.ofNat 32 ((s.entry e).prog.offsetAfter o) = t + BitVec.ofNat 32 k := by
    rw [hk, BitVec.ofNat_add, ← ho, BitVec.ofNat_toNat, BitVec.setWidth_eq]
    ring
  rw [State.actInside, Entry.serves_eq, Entry.atOffset_raiseSkew _ hp hlast]
  refine State.followed_of_kept _ rfl rfl rfl ?_
  dsimp only
  rw [hnext]
  exact lateness_add_le hlate (by omega)

/-- The record that an END leaves when it begins the next cycle (R44, R45). -/
theorem Entry.newCycle_raiseSkew (r : Entry) (hp : r.progWithStaged.Lawful) (now t : Instant) :
    ({ r.countCycle with cycleStart := t } : Entry).takeStart.raiseSkew (skewOf now t) = { r with
      prog := r.progWithStaged
      staged := Staged.none
      cycleStart := t
      cyclesDone := BitVec.ofNat 16 (min 65535 (r.cyclesDone.toNat + 1))
      phase := r.progWithStaged.phaseOf 0
      nextInstant := t + BitVec.ofNat 32 (r.progWithStaged.offsetAfter 0)
      worstSkew := r.skewAfter now t } := by
  rw [Entry.countCycle_eq]
  exact Entry.takeStart_raiseSkew { r with
    cycleStart := t, cyclesDone := BitVec.ofNat 16 (min 65535 (r.cyclesDone.toNat + 1)) } hp now t

/-- The END of a cycle that begins the next taken by an action, and what follows it (R43, R44, R45). -/
theorem State.actNewCycle_followed {s : State} {e : Fin 64} {r : Entry} (hr : s.entry e = r) {t : Instant}
    (hp : r.progWithStaged.Lawful) (hlate : (s.now - t).toNat ≤ 255) :
    s.Followed (s.actNewCycle e r t) e { r with
      prog := r.progWithStaged
      staged := Staged.none
      cycleStart := t
      cyclesDone := BitVec.ofNat 16 (min 65535 (r.cyclesDone.toNat + 1))
      phase := r.progWithStaged.phaseOf 0
      nextInstant := t + BitVec.ofNat 32 (r.progWithStaged.offsetAfter 0)
      worstSkew := r.skewAfter s.now t }
      (r.prog.pointServed r.prog.lastOffset false || r.progWithStaged.pointServed 0 true) := by
  subst hr
  have hb := (s.entry e).progWithStaged.nextOffset_bounds (o := 0) (by decide)
  rw [Programme.nextOffset_eq hp hp.lastOffset_pos] at hb
  rw [State.actNewCycle, Entry.newCycle_raiseSkew _ hp, Entry.serves_eq, Entry.serves_eq, Programme.endAt_eq]
  exact State.followed_of_kept _ rfl rfl rfl (lateness_add_le hlate hb.2)

/-- An action of the entry whose item is handed over: what follows its record is told of the state before the dispatch recorded
it and the item was taken out (R72). -/
theorem State.Followed.of_handing {s t : State} {d : DispatchWork} {i : DueItem} {r : Entry} {served : Bool}
    (h : (s.handing d i).Followed t i.entry r served) :
    t.entry i.entry = { r with flags := { r.flags with strobeMerged := (t.entry i.entry).flags.strobeMerged } } ∧
      s.StrobeServed t i.entry served ∧ s.ItemBecomes t i.entry (some r.nextInstant) ∧
      s.CallBecomes t i.entry r.phase.call ∧ t.dispatch = some (d.hand i.entry (s.entry i.entry).successor) ∧
      s.SameEntriesBut t [i.entry] ∧ t.lines = s.lines ∧ s.SameOutsideRuns t :=
  ⟨h.record, h.strobe, h.item.of_removeDue, h.call, h.frame.dispatch, h.others, h.lines, h.frame.outside⟩

/-- The cases of an action of a RUNNING or DRAINING entry, by the offset of its nominal instant (R43). -/
theorem State.actRunning_of_inside {s : State} {e : Fin 64} {t : Instant} {o : Nat}
    (ho : (t - (s.entry e).cycleStart).toNat = o) (h0 : o ≠ 0) (hlast : o < (s.entry e).prog.lastOffset) :
    s.actRunning e t = s.actInside e (s.entry e) t o := by
  subst ho
  refine (if_neg h0).trans (if_neg ?_)
  rw [Programme.endAt_eq]
  exact Nat.ne_of_lt hlast

theorem State.actRunning_of_end {s : State} {e : Fin 64} {t : Instant} (hp : (s.entry e).prog.Lawful)
    (ho : (t - (s.entry e).cycleStart).toNat = (s.entry e).prog.lastOffset) :
    s.actRunning e t =
      if (s.entry e).endsRun then s.actFinal e (s.entry e) t else s.actNewCycle e (s.entry e) t := by
  have h0 : (t - (s.entry e).cycleStart).toNat ≠ 0 := by
    rw [ho]
    exact Nat.ne_of_gt hp.lastOffset_pos
  exact (if_neg h0).trans (if_pos (ho.trans (Programme.endAt_eq _).symm))

/-- Settles O10: the action writes the record of a START, and its level, request and item follow. -/
theorem actionTakesTheStart : Obligations.ActionTakesTheStart := by
  unfold Obligations.ActionTakesTheStart
  intro s d i h
  dsimp only
  intro hstate hp
  obtain ⟨r, hexec, hr⟩ := h.exec_action_of_start hstate
  obtain ⟨-, -, -, -, -, hlate⟩ := h
  have hfollowed := State.actStart_followed (s := s.handing d i) (e := i.entry) (r := r) (by rw [hr]; rfl) (by rw [hr]; rfl)
    (by rw [hr]; exact hp) (by rw [hr]; exact hlate) i.due
  have hdone := hfollowed.of_handing
  rw [hr] at hexec hdone
  exact ⟨_, hexec, hdone⟩

/-- Settles O11: the action writes the record of the instants at its offset, and its level, request and item follow. -/
theorem actionInsideACycle : Obligations.ActionInsideACycle := by
  unfold Obligations.ActionInsideACycle
  intro s d i h
  dsimp only
  intro hstate hp h0 hlast _
  have hexec := h.exec_action_of_running hstate
  rw [State.actRunning_of_inside (s := s.handing d i) rfl h0 hlast, State.handing_entry] at hexec
  obtain ⟨-, -, -, -, -, hlate⟩ := h
  exact ⟨_, hexec, (State.actInside_followed (s := s.handing d i) (r := s.entry i.entry) rfl hp rfl hlast hlate).of_handing⟩

/-- The END of a cycle does not end the run of a RUNNING entry whose count is not reached (R44). -/
theorem Entry.endsRun_eq_false {r : Entry} (hr : r.state = .running)
    (hc : r.prog.count = 0 ∨ r.cyclesDone.toNat + 1 < r.prog.count.toNat) : r.endsRun = false := by
  have hlt := r.prog.count.isLt
  unfold Entry.endsRun
  rw [Entry.countCycle_eq, hr]
  rcases hc with hc | hc
  · simp [hc]
  · simp
    omega

/-- Settles O12: the END of a cycle whose count is not reached begins the next cycle. -/
theorem actionBeginsTheNextCycle : Obligations.ActionBeginsTheNextCycle := by
  unfold Obligations.ActionBeginsTheNextCycle
  intro s d i h
  dsimp only
  intro hr hold hp hone ho hc
  have hlast : (s.entry i.entry).prog.lastOffset = (s.entry i.entry).prog.period.toNat := if_neg hone
  have hexec := h.exec_action_of_running (.inl hr)
  rw [State.actRunning_of_end (s := s.handing d i) hold (ho.trans hlast.symm), State.handing_entry,
    Entry.endsRun_eq_false hr hc, if_neg Bool.false_ne_true] at hexec
  obtain ⟨-, -, -, -, -, hlate⟩ := h
  have hfollowed := State.actNewCycle_followed (s := s.handing d i) (r := s.entry i.entry) rfl hp hlate
  rw [hlast] at hfollowed
  exact ⟨_, hexec, hfollowed.of_handing⟩

end Sys2Proof.Machine
end

section
/-! SUPPORT. The final action of a run (R44, R50 to R53): the record it leaves, and what follows the end of a run. -/

namespace Sys2Proof.Machine

/-! ### The end of a run (R43 step 1, R44, R50) -/

/-- The record of a final action (R44, R50). -/
theorem Entry.endOfRun_eq (r : Entry) (hp : r.prog.Lawful) (now t : Instant) :
    r.endOfRun t (skewOf now t) = { r with
      cyclesDone := BitVec.ofNat 16 (min 65535 (r.cyclesDone.toNat + 1))
      runsCompleted := BitVec.ofNat 16 (min 65535 (r.runsCompleted.toNat + 1))
      phase := .rest
      nextInstant := t
      worstSkew := r.skewAfter now t } := by
  rw [show (65535 : Nat) = 2 ^ 16 - 1 from rfl, ← satSucc_eq_min, ← satSucc_eq_min, ← hp.phaseOf_lastOffset,
    ← Programme.phaseAt_eq, ← Programme.endAt_eq, ← Entry.raiseSkew_eq]
  rfl

/-- A final action ends the run of a DRAINING entry, and of a RUNNING one whose count is reached (R44, R53). -/
theorem Entry.endsRun_eq_true {r : Entry}
    (h : r.state = .draining ∨ (r.prog.count ≠ 0 ∧ r.prog.count.toNat ≤ r.cyclesDone.toNat + 1)) : r.endsRun = true := by
  have hlt := r.prog.count.isLt
  unfold Entry.endsRun
  rw [Entry.countCycle_eq, Bool.or_eq_true, Bool.and_eq_true]
  refine h.imp decide_eq_true fun ⟨h0, hc⟩ => ⟨decide_eq_true h0, decide_eq_true ?_⟩
  rw [BitVec.toNat_ofNat]
  omega

/-- `v` is what the final instants of a run of entry `e`, whose record is `r`, leave of `s`, before what follows the run. -/
structure State.RunEnded (s v : State) (e : Fin 64) (r : Entry) (t : Instant) : Prop where
  record : v.entry e = { r with
    cyclesDone := BitVec.ofNat 16 (min 65535 (r.cyclesDone.toNat + 1))
    runsCompleted := BitVec.ofNat 16 (min 65535 (r.runsCompleted.toNat + 1))
    phase := .rest
    nextInstant := t
    worstSkew := r.skewAfter s.now t
    flags := { r.flags with strobeMerged := (v.entry e).flags.strobeMerged } }
  strobe : s.StrobeServed v e (r.prog.pointServed r.prog.lastOffset false)
  others : s.SameEntriesBut v [e]
  frame : s.RunFrame v
  units : ∃ es ks, v = { s with entries := es, strobes := ks }

/-- A final action is the end of the run, and then what follows it (R43 step 1). -/
theorem State.actFinal_runEnded {s : State} {e : Fin 64} {r : Entry} (hr : s.entry e = r) (hp : r.prog.Lawful) (t : Instant) :
    ∃ v, s.actFinal e r t = v.afterRun e t (r.prog.pointServed r.prog.lastOffset false) ∧ s.RunEnded v e r t := by
  subst hr
  refine ⟨(s.setEntry e ((s.entry e).endOfRun t (skewOf s.now t))).serveStrobe e
    ((s.entry e).prog.pointServed (s.entry e).prog.lastOffset false), ?_, ?_, ?_, fun x hx => ?_,
    (s.setEntry_frame e _).trans (State.serveStrobe_frame _ e _), ?_⟩
  · rw [State.actFinal, Entry.serves_eq, Programme.endAt_eq]
  · rw [State.serveStrobe_record, State.entry_setEntry_self, Entry.endOfRun_eq _ hp]
  · refine (State.serveStrobe_served (s.setEntry e ((s.entry e).endOfRun t (skewOf s.now t))) e _).congr rfl rfl ?_ ?_ rfl <;>
      rw [State.entry_setEntry_self] <;> rfl
  · exact (State.serveStrobe_others _ e _ x hx).trans (s.entry_setEntry_ne _ fun c => hx (c ▸ List.mem_singleton_self e))
  · obtain ⟨es, ks, h⟩ := (s.setEntry e ((s.entry e).endOfRun t (skewOf s.now t))).serveStrobe_eq e
      ((s.entry e).prog.pointServed (s.entry e).prog.lastOffset false)
    exact ⟨es, ks, h⟩

/-- ACTION at the nominal end of a run (R43, R44). -/
theorem State.Hands.exec_action_of_final {s : State} {d : DispatchWork} {i : DueItem} (h : s.Hands d i)
    (hstate : (s.entry i.entry).state = .draining ∨ ((s.entry i.entry).state = .running ∧ (s.entry i.entry).prog.count ≠ 0 ∧
      (s.entry i.entry).prog.count.toNat ≤ (s.entry i.entry).cyclesDone.toNat + 1))
    (hp : (s.entry i.entry).prog.Lawful)
    (ho : (i.due - (s.entry i.entry).cycleStart).toNat = (s.entry i.entry).prog.lastOffset) :
    ∃ v, exec .action s = .next (v.afterRun i.entry i.due
        ((s.entry i.entry).prog.pointServed (s.entry i.entry).prog.lastOffset false)) ∧
      (s.handing d i).RunEnded v i.entry (s.entry i.entry) i.due := by
  obtain ⟨v, hv, hended⟩ := State.actFinal_runEnded (s := s.handing d i) rfl hp i.due
  have hexec := h.exec_action_of_running (hstate.symm.imp_left And.left)
  rw [State.actRunning_of_end (s := s.handing d i) hp ho, State.handing_entry,
    Entry.endsRun_eq_true (hstate.imp_right And.right), if_pos rfl] at hexec
  exact ⟨v, hexec.trans (congrArg Host.Outcome.next hv), hended⟩

/-! ### What follows the end of a run (section 3.5) -/

section AfterRun

variable {s : State} {e : Fin 64} (t : Instant) (served : Bool)

/-- A DRAINING entry retires DRAINED (R53). -/
theorem State.afterRun_of_draining (h : (s.entry e).state = .draining) :
    s.afterRun e t served = s.retireWell e .drained t := if_pos h

/-- An entry that is not EVERY retires COMPLETED (R50). -/
theorem State.afterRun_of_not_every (h : (s.entry e).state ≠ .draining) (he : (s.entry e).isEvery = false) :
    s.afterRun e t served = s.retireWell e .completed t := by
  refine (if_neg h).trans ?_
  unfold Entry.isEvery at he
  split at he
  · cases he
  · next hn =>
    split
    · next hs _ => exact absurd hs (hn _ _)
    · next hs _ => exact absurd hs (hn _ _)
    · rfl

/-- A RUNNING EVERY entry without a held trigger returns to PENDING (R51). -/
theorem State.afterRun_of_every (h : (s.entry e).state ≠ .draining) (he : (s.entry e).isEvery = true)
    (hh : (s.entry e).heldTrigger = none) : s.afterRun e t served = s.returnToPending e := by
  refine (if_neg h).trans ?_
  unfold Entry.isEvery at he
  split at he
  · next hs => rw [hs, hh]
  · cases he

/-- A RUNNING EVERY entry with a held trigger begins a run at the held instant (R52). -/
theorem State.afterRun_of_held {held : Instant} (h : (s.entry e).state ≠ .draining) (he : (s.entry e).isEvery = true)
    (hh : (s.entry e).heldTrigger = some held) :
    s.afterRun e t served = (s.setEntry e { s.entry e with heldTrigger := none }).startInEvent e held !served := by
  refine (if_neg h).trans ?_
  unfold Entry.isEvery at he
  split at he
  · next hs => simp only [hs, hh]
  · cases he

/-- A retirement COMPLETED or DRAINED of an entry without a successor hands nothing off (R50). -/
theorem State.retireWell_of_alone (oc : EntryOutcome) (h : (s.entry e).successor = none) :
    s.retireWell e oc t = s.retireOne e oc none := by
  rw [State.retireWell, h]

end AfterRun

/-! ### Retirement at the end of a run (R50, R53) -/

/-- A retirement keeps STROBE_MERGED (R27). -/
theorem Entry.RetiredAs.strobeMerged {r r' : Entry} {oc : EntryOutcome} {t : Instant} (h : r.RetiredAs r' oc t) :
    r'.flags.strobeMerged = r.flags.strobeMerged := by
  have hr : r' = _ := h
  rw [hr]

/-- The record of an entry without a successor that retires is whole (R27). -/
theorem State.retireOne_retiredAs_of_alone {s : State} {e : Fin 64} (oc : EntryOutcome) (taker : Option (Fin 64))
    (h : (s.entry e).scheduled = true) (hs : (s.entry e).successor = none) :
    (s.entry e).RetiredAs ((s.retireOne e oc taker).entry e) oc s.now := by
  have hnone : ((s.retireOne e oc taker).entry e).successor = none :=
    (s.retireOne_successor (e := e) oc taker e).elim (fun c => c.trans hs) And.left
  have hr := s.retireOne_retiredAs (e := e) oc taker h
  rwa [show { (s.retireOne e oc taker).entry e with successor := none } = (s.retireOne e oc taker).entry e by
    rw [← hnone]] at hr

/-- Settles O13: the end of the run is the retirement of its entry. -/
theorem finalActionRetires : Obligations.FinalActionRetires := by
  unfold Obligations.FinalActionRetires
  intro s d i h
  dsimp only
  intro hstate hp ho hsucc
  obtain ⟨v, hexec, hrec, hstrobe, hothers, hframe, es, ks, hv⟩ :=
    h.exec_action_of_final (hstate.imp_right fun ⟨hr, _, hc⟩ => ⟨hr, hc⟩) hp ho
  have halone : (v.entry i.entry).successor = none := by rw [hrec]; exact hsucc
  have hrun : v.afterRun i.entry i.due ((s.entry i.entry).prog.pointServed (s.entry i.entry).prog.lastOffset false) =
      v.retireOne i.entry (if (s.entry i.entry).state = .draining then .drained else .completed) none := by
    rw [← State.retireWell_of_alone i.due _ halone]
    rcases hstate with hd | ⟨hr, he, -⟩
    · rw [if_pos hd]
      exact State.afterRun_of_draining _ _ (by rw [hrec]; exact hd)
    · have hnd : (s.entry i.entry).state ≠ .draining := by simp [hr]
      rw [if_neg hnd]
      exact State.afterRun_of_not_every _ _ (by rw [hrec]; exact hnd) (by rw [hrec]; exact he)
  have hsch : (v.entry i.entry).scheduled = true := by
    rw [hrec]
    rcases hstate with hd | ⟨hr, -⟩ <;> simp [Entry.scheduled, *]
  rw [hrun] at hexec
  generalize (if (s.entry i.entry).state = .draining then EntryOutcome.drained else .completed) = oc at hexec ⊢
  have hretired := State.retireOne_retiredAs_of_alone oc none hsch halone
  have hmerged := hretired.strobeMerged
  have hidle := State.retireOne_laneGoesIdle oc hsch
  obtain ⟨hsettings, hfilters, houtside, hdispatch⟩ : s.SameLaneSettings (v.retireOne i.entry oc none) ∧
      s.SameFilters (v.retireOne i.entry oc none) ∧ s.SameOutsideRuns (v.retireOne i.entry oc none) ∧
      (v.retireOne i.entry oc none).dispatch = some (d.hand i.entry (s.entry i.entry).successor) := by
    have hf := hframe.trans (v.retireOne_frame i.entry oc none)
    exact ⟨hf.lanes, hf.filters, hf.outside, hf.dispatch⟩
  refine ⟨_, hexec, ?_, hstrobe.congr rfl (v.retireOne_strobes i.entry oc none) rfl rfl hmerged,
    State.retireOne_released oc hsch, ⟨fun l hl ho => hidle.1 l ?_ ?_, hsettings⟩, ?_, ?_, fun x hx => ?_, hfilters, houtside⟩
  · rw [hmerged]
    rw [hrec, hframe.now_eq] at hretired
    exact hretired
  · rw [hrec]
    exact hl
  · rw [hv]
    exact ho
  · have hdue := v.retireOne_due oc none hsch
    rw [hv] at hdue ⊢
    exact (State.itemBecomes_none hdue).of_removeDue
  · exact hdispatch.trans (by rw [hsucc])
  · have hpred := v.retireOne_sameEntriesBut i.entry oc none
    rw [hrec] at hpred
    exact (hpred x hx).trans (hothers x fun c => hx (List.mem_singleton.mp c ▸ List.mem_cons_self))

/-! ### The return to PENDING (R51) -/

/-- An entry that returns to PENDING has the staged values in its programme, and its lane is called INACTIVE (R51). -/
theorem State.returnToPending_entry (s : State) (e x : Fin 64) :
    (s.returnToPending e).entry x =
      if x = e then { s.entry e with state := .pending, prog := (s.entry e).progWithStaged, staged := Staged.none }
      else s.entry x := by
  obtain ⟨ls, h⟩ := (s.setEntry e { (s.entry e).takeStaged with state := .pending }).handLevel_eq e .inactive
  rw [State.returnToPending, h]
  exact s.entry_setEntry e x _

theorem State.returnToPending_call (s : State) (e : Fin 64) : s.CallBecomes (s.returnToPending e) e .inactive := by
  intro l
  refine (State.handLevel_lane _ e .inactive l).trans ?_
  rw [State.entry_setEntry_self]
  rfl

/-- The return to PENDING changes the entries and the lanes alone. -/
theorem State.returnToPending_eq (s : State) (e : Fin 64) :
    ∃ es ls, s.returnToPending e = { s with entries := es, lanes := ls } := by
  obtain ⟨ls, h⟩ := (s.setEntry e { (s.entry e).takeStaged with state := .pending }).handLevel_eq e .inactive
  exact ⟨_, ls, h⟩

/-- Settles O14: the end of the run is the return to PENDING. -/
theorem finalActionReturnsToPending : Obligations.FinalActionReturnsToPending := by
  unfold Obligations.FinalActionReturnsToPending
  intro s d i h
  dsimp only
  intro hr he hheld hp h0 hc ho
  obtain ⟨v, hexec, hrec, hstrobe, hothers, hframe, es, ks, hv⟩ := h.exec_action_of_final (.inr ⟨hr, h0, hc⟩) hp ho
  rw [State.afterRun_of_every _ _ (by rw [hrec]; simp [hr]) (by rw [hrec]; exact he) (by rw [hrec]; exact hheld)] at hexec
  have hself := v.returnToPending_entry i.entry i.entry
  rw [if_pos rfl] at hself
  have hcall := v.returnToPending_call i.entry
  have hf := hframe.trans (v.returnToPending_frame i.entry)
  obtain ⟨es', ls, ht⟩ := v.returnToPending_eq i.entry
  refine ⟨_, hexec, ?_, hstrobe.congr rfl (by rw [ht]) rfl rfl (by rw [hself]), ?_, fun l => ?_, hf.dispatch, fun x hx => ?_, ?_,
    hf.outside⟩
  · rw [hself]
    dsimp only
    rw [hrec]
    rfl
  · refine (State.itemBecomes_none (s := s) ?_)
    rw [ht, hv]
    rfl
  · rw [hcall l, hrec, hv]
    rfl
  · have hne : x ≠ i.entry := fun c => hx (List.mem_singleton.mpr c)
    rw [v.returnToPending_entry, if_neg hne]
    exact hothers x hx
  · rw [ht, hv]
    rfl

end Sys2Proof.Machine
end

section
/-! SUPPORT. A run that begins in an event and takes its START there (R47, R49, R52, R67): its item kept, or more than 255 ticks
late. -/

namespace Sys2Proof.Machine

/-! ### A run that begins in an event (R47, R49) -/

/-- The record of a run that begins at an instant and takes its START (R45, R47, R49). -/
theorem Entry.beginRun_takeStart (r : Entry) (hp : r.progWithStaged.Lawful) (start : Instant) :
    (r.beginRun start).takeStart = { r with
      state := .running
      prog := r.progWithStaged
      staged := Staged.none
      cycleStart := start
      cyclesDone := 0
      phase := r.progWithStaged.phaseOf 0
      nextInstant := start + BitVec.ofNat 32 (r.progWithStaged.offsetAfter 0) } :=
  (r.beginRun start).takeStart_eq hp

section Start

variable {s : State} {e : Fin 64} {start : Instant}

/-- The start of a run in an event is a record written, and what follows it. -/
theorem State.startInEvent_eq (s : State) (e : Fin 64) (start : Instant) (unserved : Bool) :
    s.startInEvent e start unserved = (s.setEntry e ((s.entry e).beginRun start).takeStart).follow e
      (unserved && (s.entry e).progWithStaged.pointServed 0 true) := by
  rw [State.startInEvent, Entry.serves_eq]
  rfl

/-- A run whose first item is kept (R49, R67). -/
theorem State.startInEvent_followed (unserved : Bool)
    (h : lateness ((s.entry e).beginRun start).takeStart.nextInstant s.now ≤ 255) :
    s.Followed (s.startInEvent e start unserved) e ((s.entry e).beginRun start).takeStart
      (unserved && (s.entry e).progWithStaged.pointServed 0 true) := by
  rw [State.startInEvent_eq]
  exact State.followed_of_kept _ rfl rfl rfl h

/-- A run whose first item is more than 255 ticks late retires OVERRUN in the event (R67). -/
theorem State.startInEvent_of_late (unserved : Bool)
    (h : 255 < lateness ((s.entry e).beginRun start).takeStart.nextInstant s.now) :
    ∃ u, s.startInEvent e start unserved = (u.removeDue e).retireBroken e .overrun ∧
      s.Written u e ((s.entry e).beginRun start).takeStart (unserved && (s.entry e).progWithStaged.pointServed 0 true) := by
  have hw : s.Written _ e ((s.entry e).beginRun start).takeStart (unserved && (s.entry e).progWithStaged.pointServed 0 true) :=
    State.written_of_same _ rfl rfl rfl
  refine ⟨_, ?_, hw⟩
  rw [State.startInEvent_eq, State.setEntry_follow]
  refine if_pos ?_
  rw [hw.record, hw.frame.now_eq]
  exact h

/-- A run that begins at `now` or later, or not more than 255 ticks before it, keeps its item (R67). -/
theorem Entry.beginRun_takeStart_kept (r : Entry) {now : Instant} (h : (now - start).toNat ≤ 255) :
    lateness (r.beginRun start).takeStart.nextInstant now ≤ 255 :=
  lateness_add_le h (r.progWithStaged.nextOffset_bounds (o := 0) (by decide)).2

end Start

/-! ### The held trigger (R52) -/

/-- The held trigger is taken out of the record that the end of the run has left (R52). -/
theorem State.RunEnded.held_taken {s v : State} {e : Fin 64} {r : Entry} {t : Instant} (h : s.RunEnded v e r t) :
    s.RunEnded (v.setEntry e { v.entry e with heldTrigger := none }) e { r with heldTrigger := none } t := by
  obtain ⟨hrec, hstrobe, hothers, hframe, es, ks, hv⟩ := h
  refine ⟨?_, hstrobe.congr rfl rfl rfl rfl ?_, fun x hx => ?_, hframe.trans (v.setEntry_frame _ _), ?_⟩
  · rw [State.entry_setEntry_self]
    exact congrArg (fun r : Entry => { r with heldTrigger := none }) hrec
  · rw [State.entry_setEntry_self]
  · rw [State.entry_setEntry_ne _ _ fun c => hx (List.mem_singleton.mpr c)]
    exact hothers x hx
  · rw [hv]
    exact ⟨_, ks, rfl⟩

/-- The record of the run that begins where the last one has ended (R45, R47). -/
theorem State.RunEnded.takeStart {s v : State} {e : Fin 64} {r : Entry} {t : Instant} (h : s.RunEnded v e r t)
    (hr : r.state = .running) (hp : r.progWithStaged.Lawful) (start : Instant) :
    ∃ merged, ((v.entry e).beginRun start).takeStart = { r with
      prog := r.progWithStaged
      staged := Staged.none
      cycleStart := start
      cyclesDone := 0
      runsCompleted := BitVec.ofNat 16 (min 65535 (r.runsCompleted.toNat + 1))
      phase := r.progWithStaged.phaseOf 0
      nextInstant := start + BitVec.ofNat 32 (r.progWithStaged.offsetAfter 0)
      worstSkew := r.skewAfter s.now t
      flags := { r.flags with strobeMerged := merged } } := by
  obtain ⟨merged, hrec⟩ : ∃ merged, v.entry e = { r with
      cyclesDone := BitVec.ofNat 16 (min 65535 (r.cyclesDone.toNat + 1))
      runsCompleted := BitVec.ofNat 16 (min 65535 (r.runsCompleted.toNat + 1))
      phase := .rest
      nextInstant := t
      worstSkew := r.skewAfter s.now t
      flags := { r.flags with strobeMerged := merged } } := ⟨_, h.record⟩
  have hstart := (v.entry e).beginRun_takeStart (by rw [hrec]; exact hp) start
  rw [hrec, ← hr] at hstart
  refine ⟨merged, ?_⟩
  rw [hrec]
  exact hstart

/-- A retirement of the entry just written releases its claims as one of the entry as it was (R27, R28, R103). -/
theorem State.Written.retireBroken {s u : State} {e : Fin 64} {r : Entry} {served : Bool} (h : s.Written u e r served)
    (oc : EntryOutcome) (hsch : r.scheduled = true) (hlane : r.prog.lane = (s.entry e).prog.lane) :
    let t := (u.removeDue e).retireBroken e oc
    Entry.RetiredAs { r with flags := { r.flags with strobeMerged := (t.entry e).flags.strobeMerged } } (t.entry e) oc s.now ∧
      s.StrobeServed t e served ∧ t.Released e ∧ s.LaneGoesIdle t e ∧ s.RunFrame t := by
  intro t
  have hu : ((u.removeDue e).entry e).scheduled = true := by
    change (u.entry e).scheduled = true
    rw [h.record]
    exact hsch
  obtain ⟨hretired, hreleased⟩ := State.retireBroken_retired oc hu
  have hidle := State.retireBroken_laneGoesIdle oc hu
  have hmerged : (t.entry e).flags.strobeMerged = (u.entry e).flags.strobeMerged := hretired.strobeMerged
  have hframe := h.frame.trans ((u.removeDue_frame e).trans (State.retireBroken_frame _ e oc))
  refine ⟨?_, h.strobe.congr rfl ((State.retireBroken_strobes _ e oc).trans rfl) rfl rfl hmerged, hreleased,
    ⟨fun l hl ho => hidle.1 l ?_ ?_, hframe.lanes⟩, hframe⟩
  · rw [hmerged, ← h.record, ← h.frame.now_eq]
    exact hretired
  · change (u.entry e).prog.lane = some l
    rw [h.record]
    exact hlane.trans hl
  · have hown : (u.lane l).owner = (s.lane l).owner := by
      rw [h.call l]
      split <;> rfl
    exact hown.trans ho

/-- Settles O15: the end of the run is the start of one from the held instant, which asks for a pulse only where the run that
ended has not. -/
theorem finalActionServesTheHeldTrigger : Obligations.FinalActionServesTheHeldTrigger := by
  unfold Obligations.FinalActionServesTheHeldTrigger
  intro s d i held h
  dsimp only
  intro hr he hheld hold hp h0 hc ho
  obtain ⟨v, hexec, hended⟩ := h.exec_action_of_final (.inr ⟨hr, h0, hc⟩) hold ho
  have hrec := hended.record
  rw [State.afterRun_of_held (held := held) _ _ (by rw [hrec]; simp [hr]) (by rw [hrec]; exact he) (by rw [hrec]; exact hheld)]
    at hexec
  replace hended := hended.held_taken
  generalize v.setEntry i.entry { v.entry i.entry with heldTrigger := none } = w at hexec hended
  obtain ⟨merged, hq⟩ := hended.takeStart hr hp held
  obtain ⟨hrec, hstrobe, hothers, hframe, es, ks, hw⟩ := hended
  have honce : ∀ {t}, w.StrobeServed t i.entry
      (!(s.entry i.entry).prog.pointServed (s.entry i.entry).prog.lastOffset false &&
        (w.entry i.entry).progWithStaged.pointServed 0 true) → s.StrobeServed t i.entry
      ((s.entry i.entry).prog.pointServed (s.entry i.entry).prog.lastOffset false ||
        (s.entry i.entry).progWithStaged.pointServed 0 true) := fun {t} hs => by
    rw [hrec] at hs
    exact hstrobe.once hs (by rw [hrec]; rfl)
  rcases Nat.lt_or_ge 255 (lateness (held + BitVec.ofNat 32 ((s.entry i.entry).progWithStaged.offsetAfter 0)) s.now) with
    hlate | hkept
  · obtain ⟨u, hu, hwritten⟩ := State.startInEvent_of_late (s := w) (e := i.entry) (start := held)
      (!(s.entry i.entry).prog.pointServed (s.entry i.entry).prog.lastOffset false) (by
        rw [hq, hframe.now_eq]; exact hlate)
    rw [hu] at hexec
    rw [hq] at hwritten
    obtain ⟨hretired, hserved, hreleased, ⟨hidle, -⟩, hlast⟩ := hwritten.retireBroken .overrun
      (by simp [Entry.scheduled, hr]) (by rw [hrec]; rfl)
    have hf := hframe.trans hlast
    refine ⟨_, hexec, honce hserved, ?_, hf.dispatch, hf.outside⟩
    rw [if_neg (Nat.not_le.mpr hlate)]
    refine ⟨?_, hreleased, fun l hl ho => hidle l (by rw [hrec]; exact hl) (by rw [hw]; exact ho), hf.lanes⟩
    rw [hframe.now_eq] at hretired
    exact hretired
  · have hfollowed := State.startInEvent_followed (s := w) (e := i.entry) (start := held)
      (!(s.entry i.entry).prog.pointServed (s.entry i.entry).prog.lastOffset false) (by
        rw [hq, hframe.now_eq]; exact hkept)
    rw [hq] at hfollowed
    generalize w.startInEvent i.entry held _ = t at hexec hfollowed
    have hf := hframe.trans hfollowed.frame
    refine ⟨_, hexec, honce hfollowed.strobe, ?_, hf.dispatch, hf.outside⟩
    rw [if_pos hkept]
    have hitem := hfollowed.item
    have hlines := hfollowed.lines
    rw [hw] at hitem hlines
    refine ⟨hfollowed.record, hitem.of_removeDue, fun l => ?_, fun x hx => (hfollowed.others x hx).trans (hothers x hx), hlines⟩
    have hcall := hfollowed.call l
    rw [hrec, hw] at hcall
    exact hcall

end Sys2Proof.Machine
end

section
/-! SUPPORT. The hand-off from an entry that retires COMPLETED or DRAINED to its waiting successor (R28, R103, R120), and DRAIN on
a steady part (R59, R60). -/

namespace Sys2Proof.Machine

/-! ### The retirement that a hand-off begins with (R103, R120 steps 1 and 2) -/

/-- Entry `p` retires for its successor `y`, and the link between them is gone: the part in which the successor is started. -/
def State.retireFor (s : State) (p y : Fin 64) (oc : EntryOutcome) : State := (s.retireOne p oc (some y)).unlink p y

/-- An entry that retires for its successor leaves the lane to it, or to nobody (R103). -/
theorem Lane.released_for_holds_none (l : Lane) {e y : Fin 64} (h : y ≠ e) :
    (l.released e (some y)).owner ≠ some e ∧ (l.released e (some y)).heir ≠ some e := by
  have hy : some y ≠ some e := fun c => h (Option.some.inj c)
  unfold Lane.released
  by_cases ho : l.owner = some e
  · rw [if_pos ho]
    split
    · next hh => exact ⟨hh.2 ▸ hy, nofun⟩
    · exact ⟨nofun, nofun⟩
  · rw [if_neg ho]
    split
    · exact ⟨ho, nofun⟩
    · next hh => exact ⟨ho, hh⟩

section RetireFor

variable {s : State} {p y : Fin 64} (oc : EntryOutcome) (hsch : (s.entry p).scheduled = true)

theorem State.retireFor_frame (s : State) (p y : Fin 64) (oc : EntryOutcome) : s.RunFrame (s.retireFor p y oc) :=
  (s.retireOne_frame p oc (some y)).trans (State.unlink_frame _ p y)

/-- No entry but the two, and the predecessor of the first, changes. -/
theorem State.retireFor_sameEntriesBut (s : State) (p y : Fin 64) (oc : EntryOutcome) :
    s.SameEntriesBut (s.retireFor p y oc) (p :: y :: (s.entry p).predecessor.toList) := by
  intro x hx
  simp only [List.mem_cons, not_or] at hx
  obtain ⟨hp, hy, hpred⟩ := hx
  rw [State.retireFor, State.unlink_entry, if_neg fun c => hy c.1, if_neg fun c => hp c.1]
  exact s.retireOne_sameEntriesBut p oc (some y) x (by simp only [List.mem_cons, not_or]; exact ⟨hp, hpred⟩)

include hsch

/-- The record of the entry that retires is whole: the link to its successor is gone (R27, R120). -/
theorem State.retireFor_retired (hsucc : (s.entry p).successor = some y) (hne : y ≠ p) :
    (s.entry p).RetiredAs ((s.retireFor p y oc).entry p) oc s.now := by
  have hr := s.retireOne_retiredAs (e := p) oc (some y) hsch
  have hcut : ((s.retireFor p y oc).entry p).successor = none :=
    State.unlink_successor_self ((s.retireOne_successor (e := p) oc (some y) p).imp (fun c => c.trans hsucc) And.left)
  have hrec : (s.retireFor p y oc).entry p = { (s.retireOne p oc (some y)).entry p with successor := none } := by
    rw [← hcut, State.retireFor, State.unlink_entry, if_neg fun c => hne c.1.symm]
  rw [hrec]
  exact hr

/-- The record of the successor loses its links with the entry, at both their ends (R116, R120). -/
theorem State.retireFor_successor (hne : y ≠ p) :
    (s.retireFor p y oc).entry y = { s.entry y with
      predecessor := if (s.entry y).predecessor = some p then none else (s.entry y).predecessor
      successor :=
        if (s.entry p).predecessor = some y ∧ (s.entry y).successor = some p then none else (s.entry y).successor } := by
  rw [State.retireFor, State.unlink_entry, s.retireOne_entry_ne oc (some y) hne, if_pos hsch, s.unlinkPredecessor_entry]
  simp only [hne, false_and, if_false, true_and]

theorem State.retireFor_due : (s.retireFor p y oc).due = s.due.filter fun i => decide (i.entry ≠ p) := by
  rw [State.retireFor, State.unlink_due, s.retireOne_due oc (some y) hsch]

/-- The lane that the entry names is released for its successor (R103). -/
theorem State.retireFor_lane (l : Fin 16) :
    (s.retireFor p y oc).lane l =
      if (s.entry p).prog.lane = some l then (s.lane l).released p (some y) else s.lane l := by
  rw [State.retireFor, State.unlink_lane, s.retireOne_lane oc (some y) hsch]

/-- The claims of the entry are released (R28). -/
theorem State.retireFor_released (hsucc : (s.entry p).successor = some y) (hne : y ≠ p) : (s.retireFor p y oc).Released p := by
  obtain ⟨-, hprog, hstart⟩ := Entry.retiredAs_kept (State.retireFor_retired oc hsch hsucc hne)
  refine ⟨fun l hl => ?_, fun i hi => ?_, fun n hn => ?_⟩
  · rw [State.retireFor_lane oc hsch, if_pos (hprog ▸ hl)]
    exact (s.lane l).released_for_holds_none hne
  · rw [State.retireFor_due oc hsch] at hi
    exact of_decide_eq_true (List.mem_filter.mp hi).2
  · rw [State.retireFor, State.unlink_line, s.retireOne_line oc (some y) hsch, if_pos (hstart ▸ hn)]
    exact fun c => of_decide_eq_true (List.mem_filter.mp c).2 rfl

end RetireFor

/-! ### The start of the successor (R120 steps 3 and 4) -/

/-- A retirement of an entry with another as its successor: the successor is started where it is PENDING (R119, R120). -/
theorem State.retireWell_of_successor {s : State} {p y : Fin 64} (oc : EntryOutcome) (start : Instant)
    (hsch : (s.entry p).scheduled = true) (hsucc : (s.entry p).successor = some y) (hne : y ≠ p) :
    s.retireWell p oc start = if (s.entry y).state = .pending then (s.retireFor p y oc).startInEvent y start true
      else s.retireFor p y oc := by
  have hstate : ((s.retireFor p y oc).entry y).state = (s.entry y).state := by rw [State.retireFor_successor oc hsch hne]
  rw [State.retireWell, hsucc, ← hstate]
  rfl

/-- A run that is started releases no claim of another entry and gives it none. -/
theorem State.Followed.released {s t : State} {e p : Fin 64} {r : Entry} {served : Bool} (h : s.Followed t e r served)
    (hne : p ≠ e) (hr : s.Released p) : t.Released p := by
  have hrec : t.entry p = s.entry p := h.others p fun c => hne (List.mem_singleton.mp c)
  have hclaims : ∀ l, (t.lane l).owner = (s.lane l).owner ∧ (t.lane l).heir = (s.lane l).heir := fun l => by
    rw [h.call l]
    split <;> exact ⟨rfl, rfl⟩
  obtain ⟨hlanes, hdue, hsubs⟩ := hr
  refine ⟨fun l hl => ?_, fun i hi c => ?_, fun n hn => ?_⟩
  · rw [(hclaims l).1, (hclaims l).2]
    exact hlanes l (hrec ▸ hl)
  · have hi' : i ∈ t.due.filter fun i => decide (i.entry ≠ e) := List.mem_filter.mpr ⟨hi, decide_eq_true (c ▸ hne)⟩
    rw [h.item.1] at hi'
    exact hdue i (List.mem_filter.mp hi').1 c
  · rw [State.line, h.lines]
    exact hsubs n (hrec ▸ hn)

/-- A programme with nothing staged is the one from the next START. -/
theorem Entry.progWithStaged_of_unstaged {r : Entry} (h : r.staged = Staged.none) : r.progWithStaged = r.prog := by
  rw [Entry.progWithStaged, h]
  rfl

/-- Items that are none of the entry's stay (R65). -/
theorem State.ItemBecomes.filter {s t : State} {e : Fin 64} {x : Option Instant} (h : s.ItemBecomes t e x) {q : DueItem → Bool}
    (hq : ∀ i, q i = true → i.entry ≠ e) : t.due.filter q = s.due.filter q := by
  have hsplit : ∀ l : List DueItem, l.filter q = (l.filter fun i => decide (i.entry ≠ e)).filter q := fun l => by
    rw [List.filter_filter]
    refine List.filter_congr fun i _ => ?_
    by_cases hqi : q i = true
    · simp [hqi, hq i hqi]
    · simp [hqi]
  exact (hsplit t.due).trans ((congrArg (List.filter q) h.1).trans (hsplit s.due).symm)

section HandOff

variable {s t : State} {p y : Fin 64} {oc : EntryOutcome} {start : Instant} {r : Entry} {served : Bool}
  (hsch : (s.entry p).scheduled = true) (hne : y ≠ p)
  (h : (s.retireFor p y oc).Followed t y r served)
include hsch hne h

/-- The lanes are handed over with the level that the successor calls for (R103, R120). -/
theorem State.Followed.lanesHandedOver : s.LanesHandedOver t p y r.phase.call := by
  have hl : ∀ l, t.lane l = if (s.entry y).prog.lane = some l ∧ ((s.retireFor p y oc).lane l).owner = some y then
      { (s.retireFor p y oc).lane l with call := r.phase.call } else (s.retireFor p y oc).lane l := fun l => by
    have hc := h.call l
    rwa [State.retireFor_successor oc hsch hne] at hc
  intro l
  refine ⟨fun hp ho hh hy => ?_, fun hp ho hh => ?_, fun hp hy ho => ?_, fun hp hy => ?_⟩
  · have hrel : (s.retireFor p y oc).lane l = { s.lane l with owner := some y, call := .inactive, heir := none } := by
      rw [State.retireFor_lane oc hsch, if_pos hp, Lane.released, if_pos ho, if_pos ⟨by simp [hh], hh⟩, hh]
    rw [hl, hrel, if_pos ⟨hy, rfl⟩]
  · have hrel : (s.retireFor p y oc).lane l = { s.lane l with owner := none, call := .inactive, heir := none } := by
      rw [State.retireFor_lane oc hsch, if_pos hp, Lane.released, if_pos ho, if_neg fun c => hh c.2]
    rw [hl, hrel, if_neg fun c => nomatch c.2]
  · have hrel : (s.retireFor p y oc).lane l = s.lane l := by rw [State.retireFor_lane oc hsch, if_neg hp]
    rw [hl, hrel, if_pos ⟨hy, ho⟩]
  · rw [hl, if_neg fun c => hy c.1, State.retireFor_lane oc hsch, if_neg hp]

/-- The items of the two entries, and those of the others (R65, R69, R120). -/
theorem State.Followed.itemsHandedOver :
    (t.due.filter fun i => decide (i.entry = y)) = [⟨r.nextInstant, y⟩] ∧
      (t.due.filter fun i => decide (i.entry = p)) = [] ∧
      (t.due.filter fun i => decide (i.entry ≠ p ∧ i.entry ≠ y)) =
        s.due.filter fun i => decide (i.entry ≠ p ∧ i.entry ≠ y) := by
  obtain ⟨-, hown⟩ := h.item
  have hnot : ∀ q : DueItem → Bool, (∀ i, q i = true → i.entry ≠ y) →
      t.due.filter q = (s.due.filter fun i => decide (i.entry ≠ p)).filter q := fun q hq => by
    rw [h.item.filter hq, State.retireFor_due oc hsch]
  refine ⟨hown, ?_, ?_⟩
  · rw [hnot _ fun i hi c => hne ((of_decide_eq_true hi).symm.trans c).symm, List.filter_filter]
    exact List.filter_eq_nil_iff.mpr fun i _ => by simp
  · rw [hnot _ fun i hi => (of_decide_eq_true hi).2, List.filter_filter]
    refine List.filter_congr fun i _ => ?_
    by_cases hi : i.entry = p <;> simp [hi]

end HandOff

/-! ### A retirement with its hand-off (R50, R60, R119, R120) -/

section RetireWell

variable {s : State} {p : Fin 64} (oc : EntryOutcome) (hsch : (s.entry p).scheduled = true)
include hsch

/-- The run that the hand-off begins (R120 steps 3 and 4): the successor runs its programme, and its START is taken. -/
theorem State.retireWell_followed {y : Fin 64} {start : Instant} (hsucc : (s.entry p).successor = some y) (hne : y ≠ p)
    (hpending : (s.entry y).state = .pending) (hstaged : (s.entry y).staged = Staged.none) (hp : (s.entry y).prog.Lawful)
    (hkept : (s.now - start).toNat ≤ 255) :
    (s.retireFor p y oc).Followed (s.retireWell p oc start) y
      { s.entry y with
        state := .running
        predecessor := if (s.entry y).predecessor = some p then none else (s.entry y).predecessor
        successor :=
          if (s.entry p).predecessor = some y ∧ (s.entry y).successor = some p then none else (s.entry y).successor
        cycleStart := start
        cyclesDone := 0
        phase := (s.entry y).prog.phaseOf 0
        nextInstant := start + BitVec.ofNat 32 ((s.entry y).prog.offsetAfter 0) }
      ((s.entry y).prog.pointServed 0 true) := by
  have hrec := State.retireFor_successor oc hsch hne
  have hprog : ((s.retireFor p y oc).entry y).progWithStaged = (s.entry y).prog := by
    rw [Entry.progWithStaged_of_unstaged] <;> rw [hrec]
    exact hstaged
  have hrun := ((s.retireFor p y oc).entry y).beginRun_takeStart (hprog ▸ hp) start
  have hf := State.startInEvent_followed (s := s.retireFor p y oc) (e := y) (start := start) true
    (Entry.beginRun_takeStart_kept _ ((State.retireFor_frame s p y oc).now_eq ▸ hkept))
  rw [State.retireWell_of_successor oc start hsch hsucc hne, if_pos hpending]
  rw [hrun, hprog, Bool.true_and, hrec, ← hstaged] at hf
  exact hf

/-- The entry retires, and its claims are released, whatever becomes of its successor (R27, R28). -/
theorem State.retireWell_retired (hself : (s.entry p).successor ≠ some p) :
    (s.entry p).RetiredAs ((s.retireWell p oc s.now).entry p) oc s.now ∧ (s.retireWell p oc s.now).Released p := by
  cases hsucc : (s.entry p).successor with
  | none =>
    rw [State.retireWell_of_alone s.now oc hsucc]
    exact ⟨State.retireOne_retiredAs_of_alone oc none hsch hsucc, State.retireOne_released oc hsch⟩
  | some y =>
    have hne : y ≠ p := fun c => hself (c ▸ hsucc)
    have hretired := State.retireFor_retired oc hsch hsucc hne
    have hreleased := State.retireFor_released oc hsch hsucc hne
    rw [State.retireWell_of_successor oc s.now hsch hsucc hne]
    split
    · have hf := State.startInEvent_followed (s := s.retireFor p y oc) (e := y) (start := s.now) true
        (Entry.beginRun_takeStart_kept _ (by rw [(State.retireFor_frame s p y oc).now_eq]; simp))
      generalize (s.retireFor p y oc).startInEvent y s.now true = t at hf ⊢
      rw [← hf.others p fun c => hne (List.mem_singleton.mp c).symm] at hretired
      exact ⟨hretired, hf.released hne.symm hreleased⟩
    · exact ⟨hretired, hreleased⟩

/-- A waiting successor takes the run over at `now`, with its strobe point served where it is START (R46, R103, R120). -/
theorem State.retireWell_handedOver {y : Fin 64} (hsucc : (s.entry p).successor = some y) (hne : y ≠ p)
    (hpending : (s.entry y).state = .pending) (hstaged : (s.entry y).staged = Staged.none) (hp : (s.entry y).prog.Lawful) :
    s.HandedOver (s.retireWell p oc s.now) p y s.now ∧
      s.StrobeServed (s.retireWell p oc s.now) y ((s.entry y).prog.pointServed 0 true) ∧
      s.SameEntriesBut (s.retireWell p oc s.now) (p :: y :: (s.entry p).predecessor.toList) := by
  have hf := State.retireWell_followed oc hsch hsucc hne hpending hstaged hp (start := s.now) (by simp)
  generalize s.retireWell p oc s.now = t at hf ⊢
  have hrec := State.retireFor_successor oc hsch hne
  have hstrobes : s.strobes = (s.retireFor p y oc).strobes := by
    rw [State.retireFor, State.unlink_strobes, State.retireOne_strobes]
  have hsame : (s.entry y).prog.strobe = ((s.retireFor p y oc).entry y).prog.strobe ∧
      (s.entry y).flags.strobeMerged = ((s.retireFor p y oc).entry y).flags.strobeMerged := by
    rw [hrec]
    exact ⟨rfl, rfl⟩
  have hserved : s.StrobeServed t y ((s.entry y).prog.pointServed 0 true) := hf.strobe.congr hstrobes rfl hsame.1 hsame.2 rfl
  have hothers : s.SameEntriesBut t (p :: y :: (s.entry p).predecessor.toList) := fun x hx =>
    (hf.others x fun c => hx (by simp [List.mem_singleton.mp c])).trans (s.retireFor_sameEntriesBut p y oc x hx)
  obtain ⟨hitem, hgone, hitems⟩ := hf.itemsHandedOver hsch hne
  exact ⟨⟨hf.record, hitem, hgone, hitems, hf.lanesHandedOver hsch hne⟩, hserved, hothers⟩

end RetireWell

/-! ### DRAIN (R59, R60) -/

/-- A DRAIN throws the held trigger away, and counts it where there is one (R16, R59). -/
theorem Entry.discardHeld_eq (r : Entry) : r.discardHeld = { r with
    heldTrigger := none
    missedTriggers := if r.heldTrigger = none then r.missedTriggers
      else BitVec.ofNat 8 (min 255 (r.missedTriggers.toNat + 1)) } := by
  rw [Entry.discardHeld, Entry.missTrigger_eq]
  cases hh : r.heldTrigger with
  | none => simp [← hh]
  | some held => simp

/-- Settles O42: of a PENDING EVERY entry, DRAIN is the retirement that hands off at `now`. -/
theorem drainEndsAtTheCycle : Obligations.DrainEndsAtTheCycle := by
  unfold Obligations.DrainEndsAtTheCycle
  intro s tag e i hsteady hi
  refine ⟨fun hrunning => ?_, fun hpending hevery hself => ?_⟩
  · have hown : reqDrain e s = (s.setEntry i { (s.entry i).discardHeld with state := .draining }, .ok) :=
      (withEntry_of_eq hi _ _).trans (if_pos hrunning)
    rw [Entry.discardHeld_eq] at hown
    exact congrArg Host.Outcome.next (request_answered hsteady hown)
  · have hown : reqDrain e s = (s.retireWell i .drained s.now, .ok) :=
      (withEntry_of_eq hi _ _).trans ((if_neg (by simp [hpending])).trans (if_pos ⟨hpending, hevery⟩))
    have hsch : (s.entry i).scheduled = true := by simp [Entry.scheduled, hpending]
    have hframe := s.retireWell_frame i .drained s.now
    obtain ⟨htime, htrips, -⟩ := hframe.outside
    obtain ⟨hretired, hreleased⟩ := State.retireWell_retired .drained hsch hself
    refine ⟨_, congrArg Host.Outcome.next (request_answered hsteady hown), hretired, hreleased, fun hnone => ?_,
      fun y hsucc hy hstaged hp => ?_, htime, htrips, hframe.filters⟩
    · rw [State.retireWell_of_alone s.now .drained hnone]
      exact ⟨State.retireOne_laneGoesIdle .drained hsch, s.retireOne_sameEntriesBut i .drained none⟩
    · obtain ⟨hover, hstrobe, hothers⟩ :=
        State.retireWell_handedOver .drained hsch hsucc (fun c => hself (c ▸ hsucc)) hy hstaged hp
      exact ⟨hover, hstrobe, hothers, hframe.lanes⟩

end Sys2Proof.Machine
end

section
/-! SUPPORT. The walk of a qualified edge (R88 to R92, Table 5-5): what one visit does, and what a walk of entries that do not
repeat leaves. -/

namespace Sys2Proof.Machine

/-! ### The visit of a restart, and of the others -/

/-- A qualified edge restarts the run of the entry (R91). -/
def Entry.restartsRun (r : Entry) : Bool := decide (r.state = .running) && r.start.any Start.restarts

/-- A qualified edge restarts the run of the entry, whose strobe point is START, on a strobe line (R46, R91). -/
def Entry.asksFor (r : Entry) (k : Fin 4) : Bool :=
  r.restartsRun && r.progWithStaged.pointServed 0 true && decide ((r.prog.strobe.map StrobeUse.line) = some k)

/-- A restart, after those of the entries of a list, asks for a pulse on a line that is HIGH, or that one of them has asked for
(R46, R111). -/
def State.mergesAfter (s : State) (pre : List (Fin 64)) (r : Entry) : Bool :=
  (List.finRange 4).any fun k => r.asksFor k && (decide ((s.strobe k).remaining ≠ 0) ||
    (decide ((s.strobe k).width ≠ 0) && pre.any fun x => (s.entry x).asksFor k))

/-- The restart of a run whose programme from the next START is valid (R45, R46, R47, R91). -/
def Entry.restarted (r : Entry) (now : Instant) (merged : Bool) : Entry := { r with
  prog := r.progWithStaged
  staged := Staged.none
  cycleStart := now
  cyclesDone := 0
  phase := r.progWithStaged.phaseOf 0
  nextInstant := now + BitVec.ofNat 32 (r.progWithStaged.offsetAfter 0)
  flags := { r.flags with strobeMerged := r.flags.strobeMerged || merged } }

/-- A start that names a trigger line is ON_TRIGGER (R23). -/
theorem Start.eq_onTrigger {st : Option Start} {n : Fin 8} (h : st.bind Start.line? = some n) :
    ∃ mode policy, st = some (.onTrigger n mode policy) := by
  obtain ⟨x, rfl, hx⟩ := Option.bind_eq_some_iff.mp h
  cases x with
  | onTrigger m mode policy => exact ⟨mode, policy, by rw [Option.some.inj hx]⟩
  | atTime => cases hx
  | after => cases hx

theorem Entry.isEvery_iff (r : Entry) : r.isEvery = true ↔ ∃ m policy, r.start = some (.onTrigger m .every policy) := by
  unfold Entry.isEvery
  split
  · next m policy h => exact ⟨fun _ => ⟨m, policy, h⟩, fun _ => rfl⟩
  · next h => exact ⟨(nomatch ·), fun ⟨m, policy, c⟩ => (h m policy c).elim⟩

section Visit

variable {s : State} {e : Fin 64} {m : Fin 8} {mode : Mode} {policy : Retrigger}
  (hstart : (s.entry e).start = some (.onTrigger m mode policy)) (n : Fin 8) (stamp : Instant)

include hstart

/-- A visit starts a PENDING entry (R89). -/
theorem State.visit_of_pending (h : (s.entry e).state = .pending) : s.visit n stamp e = s.triggerStart n e mode stamp := by
  simp only [State.visit, hstart, h]

/-- A visit of a DRAINING entry misses the trigger (R88). -/
theorem State.visit_of_draining (h : (s.entry e).state = .draining) :
    s.visit n stamp e = s.setEntry e (s.entry e).missTrigger := by
  simp only [State.visit, hstart, h]

/-- A visit of a RUNNING EVERY entry goes by its policy (R90 to R92). -/
theorem State.visit_of_running (h : (s.entry e).state = .running) (hmode : mode = .every) :
    s.visit n stamp e = s.retrigger e policy stamp := by
  simp only [State.visit, hstart, h, hmode]

end Visit

theorem Entry.restartsRun_iff (r : Entry) :
    r.restartsRun = true ↔ r.state = .running ∧ ∃ m, r.start = some (.onTrigger m .every .restart) := by
  rw [Entry.restartsRun, Bool.and_eq_true, decide_eq_true_iff, Option.any_eq_true]
  refine and_congr_right fun _ => ⟨fun ⟨st, hst, h⟩ => ?_, fun ⟨m, h⟩ => ⟨_, h, rfl⟩⟩
  unfold Start.restarts at h
  split at h
  · exact ⟨_, hst⟩
  · cases h
  · cases h
  · cases h

/-- All that a visit can do: it starts a PENDING entry, restarts a run, or at most writes the record of the entry. -/
theorem State.visit_cases (s : State) (n : Fin 8) (stamp : Instant) (e : Fin 64) :
    (∃ mode, (s.entry e).state = .pending ∧ s.visit n stamp e = s.triggerStart n e mode stamp) ∨
    ((s.entry e).restartsRun = true ∧ s.visit n stamp e = s.startInEvent e stamp true) ∨
    ((s.entry e).restartsRun = false ∧ ∃ r, s.visit n stamp e = s.setEntry e r) := by
  have hkeep : s = s.setEntry e (s.entry e) := (s.setEntry_entry_self e).symm
  rw [← Bool.not_eq_true, Entry.restartsRun_iff]
  unfold State.visit
  split
  · next m mode policy hstart =>
    rw [hstart]
    split
    · next hp => exact .inl ⟨_, hp, rfl⟩
    · next hr =>
      unfold State.retrigger
      split
      · exact .inr (.inr ⟨by simp, _, rfl⟩)
      · exact .inr (.inl ⟨⟨hr, m, rfl⟩, rfl⟩)
      · refine .inr (.inr ⟨by simp, ?_⟩)
        split <;> exact ⟨_, rfl⟩
    · next hd => exact .inr (.inr ⟨by simp [hd], _, rfl⟩)
    · next hr => exact .inr (.inr ⟨fun ⟨h, k, hk⟩ => hr h (by cases hk; rfl), _, hkeep⟩)
  · next hno => exact .inr (.inr ⟨fun ⟨_, k, hk⟩ => hno k .every .restart hk, _, hkeep⟩)

/-! ### The start that waits for the dispatch (R48, R89) -/

section TriggerStart

variable (s : State) (n : Fin 8) (e : Fin 64) (mode : Mode)

/-- A start at `now` keeps its item: the entry runs, and a ONCE start is no longer subscribed (R48, R49, R89). -/
theorem State.triggerStart_eq : s.triggerStart n e mode s.now =
    (if mode = .once then (s.setEntry e ((s.entry e).beginRun s.now)).unsubscribeFrom n e
      else s.setEntry e ((s.entry e).beginRun s.now)).joinDue e := by
  have hkept : ∀ {t : State}, t.entry e = (s.entry e).beginRun s.now → t.now = s.now → t.insertItem e = t.joinDue e :=
    fun {t} ht hnow => State.insertItem_of_kept (by rw [ht, hnow]; simp [Entry.beginRun, lateness])
  have hself := s.entry_setEntry_self e ((s.entry e).beginRun s.now)
  cases mode with
  | once => exact hkept hself rfl
  | every => exact hkept hself rfl

/-- The record, the item and the subscription that a start at `now` leaves, and what it leaves alone (R48, R87, R89). -/
theorem State.triggerStart_leaves :
    let t := s.triggerStart n e mode s.now
    t.entry e = (s.entry e).beginRun s.now ∧ s.SameEntriesBut t [e] ∧ s.ItemBecomes t e (some s.now) ∧
      t.lanes = s.lanes ∧ t.strobes = s.strobes ∧
      ∀ x, x ∈ (t.line n).subs ↔ x ∈ (s.line n).subs ∧ (mode = .once → x ≠ e) := by
  intro t
  have ht : t = _ := s.triggerStart_eq n e mode
  have hself := s.entry_setEntry_self e ((s.entry e).beginRun s.now)
  have hne : s.SameEntriesBut (s.setEntry e ((s.entry e).beginRun s.now)) [e] := fun x hx =>
    s.entry_setEntry_ne _ fun c => hx (c ▸ List.mem_singleton_self e)
  have hnext : ((s.setEntry e ((s.entry e).beginRun s.now)).entry e).nextInstant = s.now := by rw [hself]; rfl
  rw [ht]
  cases mode with
  | once =>
    rw [if_pos rfl]
    have hitem := ((s.setEntry e ((s.entry e).beginRun s.now)).unsubscribeFrom n e).joinDue_itemBecomes e
    refine ⟨hself, hne, ?_, rfl, rfl, fun x => ?_⟩
    · exact (congrArg (fun x => State.ItemBecomes _ _ e (some x)) hnext).mp hitem
    · change x ∈ ((State.unsubscribeFrom _ n e).line n).subs ↔ _
      rw [State.unsubscribeFrom, State.line_setLine_self]
      simp
  | every =>
    have hitem := (s.setEntry e ((s.entry e).beginRun s.now)).joinDue_itemBecomes e
    refine ⟨hself, hne, ?_, rfl, rfl, fun x => ?_⟩
    · exact (congrArg (fun x => State.ItemBecomes _ _ e (some x)) hnext).mp hitem
    · change x ∈ (s.line n).subs ↔ _
      simp

end TriggerStart

/-! ### What a walk leaves -/

/-- `t` is what a walk of the entries of a list leaves of `s`: no record, no item and no subscription of another entry changes; a
lane takes a level from its owner where that is restarted; and a strobe line that is LOW takes the first request (R46, R91). -/
structure State.Walked (s t : State) (n : Fin 8) (l : List (Fin 64)) : Prop where
  frame : s.RunFrame t
  others : s.SameEntriesBut t l
  items : ∀ q : DueItem → Bool, (∀ i, q i = true → i.entry ∉ l) → t.due.filter q = s.due.filter q
  owners : ∀ k, (t.lane k).owner = (s.lane k).owner
  lanes : ∀ k, (∀ e ∈ l, (s.entry e).restartsRun = true → (s.entry e).prog.lane = some k → (s.lane k).owner ≠ some e) →
    t.lane k = s.lane k
  strobes : ∀ k, t.strobe k = if (s.strobe k).remaining = 0 ∧ (l.any fun e => (s.entry e).asksFor k) = true
    then { s.strobe k with remaining := (s.strobe k).width, countdownDue := false } else s.strobe k
  subs : ∀ x, x ∉ l → (x ∈ (t.line n).subs ↔ x ∈ (s.line n).subs)

/-- A walk of no entry changes nothing. -/
theorem State.Walked.nil (s : State) (n : Fin 8) : s.Walked s n [] where
  frame := .refl s
  others _ _ := rfl
  items _ _ := rfl
  owners _ := rfl
  lanes _ _ := rfl
  strobes _ := by simp
  subs _ _ := .rfl

/-- A walk goes on with entries that it has not visited. -/
theorem State.Walked.append {s t u : State} {n : Fin 8} {a b : List (Fin 64)} (h : s.Walked t n a) (k : t.Walked u n b)
    (hab : ∀ x ∈ b, x ∉ a) : s.Walked u n (a ++ b) where
  frame := h.frame.trans k.frame
  others x hx := by
    rw [List.mem_append, not_or] at hx
    exact (k.others x hx.2).trans (h.others x hx.1)
  items q hq := (k.items q fun i hi c => hq i hi (List.mem_append_right a c)).trans
    (h.items q fun i hi c => hq i hi (List.mem_append_left b c))
  owners x := (k.owners x).trans (h.owners x)
  lanes x hx := by
    refine (k.lanes x fun e he => ?_).trans (h.lanes x fun e he => hx e (List.mem_append_left b he))
    rw [h.others e (hab e he), h.owners x]
    exact hx e (List.mem_append_right a he)
  strobes x := by
    have hasks : (b.any fun e => (t.entry e).asksFor x) = b.any fun e => (s.entry e).asksFor x :=
      Bool.eq_iff_iff.mpr <| by
        simp only [List.any_eq_true]
        exact exists_congr fun e => and_congr_right fun he => by rw [h.others e (hab e he)]
    rw [k.strobes x, h.strobes x, hasks, List.any_append]
    by_cases hr : (s.strobe x).remaining = 0
    · cases a.any fun e => (s.entry e).asksFor x <;> cases b.any fun e => (s.entry e).asksFor x <;> simp [hr]
    · simp [hr]
  subs x hx := by
    rw [List.mem_append, not_or] at hx
    exact (k.subs x hx.2).trans (h.subs x hx.1)

section Visit

variable {s : State} {e : Fin 64} (n : Fin 8)

/-- A visit that serves no strobe point and calls for no level is a walk of its entry. -/
theorem State.Walked.of_unserved {t : State} (hno : (s.entry e).restartsRun = false) (hframe : s.RunFrame t)
    (hothers : s.SameEntriesBut t [e])
    (hitems : ∀ q : DueItem → Bool, (∀ i, q i = true → i.entry ≠ e) → t.due.filter q = s.due.filter q)
    (hlanes : t.lanes = s.lanes) (hstrobes : t.strobes = s.strobes)
    (hsubs : ∀ x, x ≠ e → (x ∈ (t.line n).subs ↔ x ∈ (s.line n).subs)) : s.Walked t n [e] where
  frame := hframe
  others := hothers
  items q hq := hitems q fun i hi c => hq i hi (c ▸ List.mem_singleton_self e)
  owners k := by rw [State.lane, hlanes, State.lane]
  lanes k _ := by rw [State.lane, hlanes, State.lane]
  strobes k := by
    rw [if_neg (by simp [Entry.asksFor, hno]), State.strobe, hstrobes, State.strobe]
  subs x hx := hsubs x fun c => hx (c ▸ List.mem_singleton_self e)

/-- A record that the walk writes alone. -/
theorem State.setEntry_walked (hno : (s.entry e).restartsRun = false) (r : Entry) : s.Walked (s.setEntry e r) n [e] :=
  .of_unserved n hno (s.setEntry_frame e r)
    (fun _ hx => s.entry_setEntry_ne r fun c => hx (c ▸ List.mem_singleton_self e)) (fun _ _ => rfl) rfl rfl fun _ _ => .rfl

/-- A start that waits for the dispatch. -/
theorem State.triggerStart_walked (h : (s.entry e).state = .pending) (mode : Mode) :
    s.Walked (s.triggerStart n e mode s.now) n [e] := by
  obtain ⟨-, hothers, hitem, hlanes, hstrobes, hsubs⟩ := s.triggerStart_leaves n e mode
  refine .of_unserved n (by simp [Entry.restartsRun, h]) (s.triggerStart_frame n e mode s.now) hothers
    (fun _ hq => hitem.filter hq) hlanes hstrobes fun x hx => (hsubs x).trans (and_iff_left fun _ => hx)

/-- A restart at `now` keeps its item (R49, R67, R91). -/
theorem State.restart_followed (s : State) (e : Fin 64) :
    s.Followed (s.startInEvent e s.now true) e ((s.entry e).beginRun s.now).takeStart
      ((s.entry e).progWithStaged.pointServed 0 true) :=
  State.startInEvent_followed true (Entry.beginRun_takeStart_kept _ (by simp))

/-- A restart (R91). -/
theorem State.restart_walked (h : (s.entry e).restartsRun = true) : s.Walked (s.startInEvent e s.now true) n [e] := by
  have hf := s.restart_followed e
  generalize s.startInEvent e s.now true = t at hf ⊢
  refine ⟨hf.frame, hf.others, fun q hq => hf.item.filter fun i hi c => hq i hi (c ▸ List.mem_singleton_self e), fun k => ?_,
    fun k hk => ?_, fun k => ?_, fun x _ => by rw [State.line, hf.lines, State.line]⟩
  · rw [hf.call k]
    split <;> rfl
  · rw [hf.call k, if_neg fun c => hk e (List.mem_singleton_self e) h c.1 c.2]
  · have hk := hf.strobe.1 k
    have hasks : ((s.strobe k).remaining = 0 ∧ ([e].any fun e => (s.entry e).asksFor k) = true) ↔
        ((s.entry e).progWithStaged.pointServed 0 true = true ∧ ((s.entry e).prog.strobe.map StrobeUse.line) = some k ∧
          (s.strobe k).remaining = 0) := by
      simp only [List.any_cons, List.any_nil, Bool.or_false, Entry.asksFor, h, Bool.true_and, Bool.and_eq_true, decide_eq_true_iff]
      tauto
    simp only [hasks]
    split at hk
    · next hc => rw [if_pos hc]; exact hk
    · next hc => rw [if_neg hc]; exact hk

/-- A visit is a walk of its entry. -/
theorem State.visit_walked (s : State) (e : Fin 64) : s.Walked (s.visit n s.now e) n [e] := by
  rcases s.visit_cases n s.now e with ⟨mode, hp, h⟩ | ⟨hr, h⟩ | ⟨hno, r, h⟩ <;> rw [h]
  · exact State.triggerStart_walked n hp mode
  · exact State.restart_walked n hr
  · exact State.setEntry_walked n hno r

end Visit

/-- A walk of entries that do not repeat (R85, R88). -/
theorem State.foldl_visit_walked (n : Fin 8) (l : List (Fin 64)) (hl : l.Nodup) (s : State) :
    s.Walked (l.foldl (fun s' e => s'.visit n s.now e) s) n l := by
  induction l generalizing s with
  | nil => exact .nil s n
  | cons e l ih =>
    obtain ⟨he, hl⟩ := List.nodup_cons.mp hl
    have hfirst := s.visit_walked n e
    have hrest := ih hl (s.visit n s.now e)
    rw [hfirst.frame.now_eq] at hrest
    exact hfirst.append hrest fun x hx c => he (List.mem_singleton.mp c ▸ hx)

/-- In a walk of `s` that ends in `t`, the visit of entry `e` comes in state `w`, after the entries of a list and before others. -/
structure State.Visited (s w t : State) (n : Fin 8) (e : Fin 64) (pre : List (Fin 64)) : Prop where
  before : s.Walked w n pre
  fresh : e ∉ pre
  after : ∃ post, e ∉ post ∧ (w.visit n w.now e).Walked t n post

/-- An entry of the list is visited once (R85, R88). -/
theorem State.walk_visits {s : State} {n : Fin 8} (hl : (s.line n).subs.Nodup) {e : Fin 64} (he : e ∈ (s.line n).subs) :
    ∃ w, s.Visited w (s.walk n s.now) n e ((s.line n).subs.takeWhile fun x => decide (x ≠ e)) := by
  rw [State.walk]
  generalize (s.line n).subs = l at hl he
  obtain ⟨pre, post, rfl⟩ := List.append_of_mem he
  obtain ⟨hpre, hpost, hdisjoint⟩ := List.nodup_append.mp hl
  obtain ⟨hnot, hpost⟩ := List.nodup_cons.mp hpost
  have hfresh : e ∉ pre := fun c => hdisjoint e c e List.mem_cons_self rfl
  have htake : ((pre ++ e :: post).takeWhile fun x => decide (x ≠ e)) = pre := by
    have hpos : ∀ x ∈ pre, decide (x ≠ e) = true := fun x hx => decide_eq_true fun c => hfresh (c ▸ hx)
    rw [List.takeWhile_append_of_pos hpos, List.takeWhile_cons_of_neg (by simp), List.append_nil]
  have hbefore := State.foldl_visit_walked n pre hpre s
  have hafter := State.foldl_visit_walked n post hpost ((pre.foldl (fun s' e => s'.visit n s.now e) s).visit n s.now e)
  rw [htake, List.foldl_append, List.foldl_cons]
  rw [(State.visit_frame _ n s.now e).now_eq, hbefore.frame.now_eq] at hafter
  exact ⟨_, hbefore, hfresh, post, hnot, by rwa [hbefore.frame.now_eq]⟩

/-! ### What the walk leaves of an entry that it visits -/

namespace State.Visited

variable {s w t : State} {n : Fin 8} {e : Fin 64} {pre : List (Fin 64)} (h : s.Visited w t n e pre)
include h

theorem now_eq : w.now = s.now := h.before.frame.now_eq

theorem entry_eq : w.entry e = s.entry e := h.before.others e h.fresh

/-- The record is what the visit leaves. -/
theorem record : t.entry e = (w.visit n w.now e).entry e := by
  obtain ⟨post, hpost, hafter⟩ := h.after
  exact hafter.others e hpost

/-- The item is what the visit leaves. -/
theorem item : (t.due.filter fun i => decide (i.entry = e)) = (w.visit n w.now e).due.filter fun i => decide (i.entry = e) := by
  obtain ⟨post, hpost, hafter⟩ := h.after
  exact hafter.items _ fun i hi c => hpost (of_decide_eq_true hi ▸ c)

/-- The subscription is what the visit leaves, and the visit found the one there was. -/
theorem subscribed : (e ∈ (t.line n).subs ↔ e ∈ ((w.visit n w.now e).line n).subs) ∧
    (e ∈ (w.line n).subs ↔ e ∈ (s.line n).subs) := by
  obtain ⟨post, hpost, hafter⟩ := h.after
  exact ⟨hafter.subs e hpost, h.before.subs e h.fresh⟩

/-- A lane that the entry owns is what the visit leaves, and the visit found it as it was. -/
theorem lane {k : Fin 16} (ho : (s.lane k).owner = some e) :
    t.lane k = (w.visit n w.now e).lane k ∧ w.lane k = s.lane k := by
  obtain ⟨post, hpost, hafter⟩ := h.after
  have hw : w.lane k = s.lane k := h.before.lanes k fun x hx _ _ c => h.fresh (Option.some.inj (ho.symm.trans c) ▸ hx)
  refine ⟨hafter.lanes k fun x hx _ _ c => hpost ?_, hw⟩
  rw [(w.visit_walked n e).owners k, hw, ho] at c
  exact Option.some.inj c ▸ hx

/-- A PENDING entry (R48, R87, R89). -/
theorem pending {m : Fin 8} {mode : Mode} {policy : Retrigger} (hstate : (s.entry e).state = .pending)
    (hstart : (s.entry e).start = some (.onTrigger m mode policy)) (he : e ∈ (s.line n).subs) :
    t.entry e = (s.entry e).beginRun s.now ∧ (t.due.filter fun i => decide (i.entry = e)) = [⟨s.now, e⟩] ∧
      (e ∈ (t.line n).subs ↔ mode ≠ .once) := by
  have hrecord := h.record
  have hitem := h.item
  obtain ⟨hsubs, hfound⟩ := h.subscribed
  obtain ⟨hown, -, ⟨-, hdue⟩, -, -, hleft⟩ := w.triggerStart_leaves n e mode
  rw [← h.entry_eq] at hstart hstate
  rw [State.visit_of_pending hstart n w.now hstate] at hrecord hitem hsubs
  refine ⟨?_, ?_, ?_⟩
  · rw [hrecord, hown, h.entry_eq, h.now_eq]
  · rw [hitem, hdue, h.now_eq]
    rfl
  · rw [hsubs, hleft e, hfound]
    simp [he]

/-- An entry whose record alone the visit writes. -/
theorem written {r : Entry} (hvisit : w.visit n w.now e = w.setEntry e r) (he : e ∈ (s.line n).subs) :
    t.entry e = r ∧ e ∈ (t.line n).subs := by
  have hrecord := h.record
  obtain ⟨hsubs, hfound⟩ := h.subscribed
  rw [hvisit] at hrecord hsubs
  exact ⟨hrecord.trans (w.entry_setEntry_self e r), hsubs.mpr (hfound.mpr he)⟩

/-- An entry that misses the trigger (R16, R88, R90, R92). -/
theorem missed {r : Entry} (hr : s.entry e = r) (hevery : r.isEvery = true) (hcase : r.state = .draining ∨ r.state = .running ∧
    (r.start = some (.onTrigger n .every .ignore) ∨ r.start = some (.onTrigger n .every .holdOne) ∧ r.heldTrigger ≠ none))
    (he : e ∈ (s.line n).subs) :
    t.entry e = { r with missedTriggers := BitVec.ofNat 8 (min 255 (r.missedTriggers.toNat + 1)) } ∧ e ∈ (t.line n).subs := by
  have hw := h.entry_eq
  rw [hr] at hw
  have hvisit : w.visit n w.now e = w.setEntry e (w.entry e).missTrigger := by
    subst hw
    rcases hcase with hd | ⟨hrun, hi | ⟨hh, hheld⟩⟩
    · obtain ⟨m, policy, hstart⟩ := (Entry.isEvery_iff _).mp hevery
      exact State.visit_of_draining hstart n w.now hd
    · exact State.visit_of_running hi n w.now hrun rfl
    · exact (State.visit_of_running hh n w.now hrun rfl).trans (if_pos (Option.isSome_iff_ne_none.mpr hheld))
  rw [hw, Entry.missTrigger_eq] at hvisit
  exact h.written hvisit he

/-- An entry that holds the trigger (R92). -/
theorem held {r : Entry} (hr : s.entry e = r) (hrun : r.state = .running)
    (hstart : r.start = some (.onTrigger n .every .holdOne)) (hnone : r.heldTrigger = none) (he : e ∈ (s.line n).subs) :
    t.entry e = { r with heldTrigger := some s.now } ∧ e ∈ (t.line n).subs := by
  have hw := h.entry_eq
  rw [hr] at hw
  have hvisit : w.visit n w.now e = w.setEntry e { r with heldTrigger := some w.now } := by
    subst hw
    exact (State.visit_of_running hstart n w.now hrun rfl).trans (if_neg (by simp [hnone]))
  rw [h.now_eq] at hvisit
  exact h.written (h.now_eq ▸ hvisit) he

/-- A strobe line is HIGH at the visit where it was, or where an entry before has asked for it (R46, R111). -/
theorem high (k : Fin 4) : decide ((w.strobe k).remaining ≠ 0) = (decide ((s.strobe k).remaining ≠ 0) ||
    (decide ((s.strobe k).width ≠ 0) && pre.any fun x => (s.entry x).asksFor k)) := by
  rw [h.before.strobes k]
  by_cases hr : (s.strobe k).remaining = 0
  · cases pre.any fun x => (s.entry x).asksFor k <;> simp [hr]
  · simp [hr]

/-- A restart asks for a pulse, and is merged where the line is HIGH (R46, R91, R111). -/
theorem merges (hrun : (s.entry e).restartsRun = true) :
    ((s.entry e).progWithStaged.pointServed 0 true && (s.entry e).prog.strobe.any fun u =>
      decide ((w.strobe u.line).remaining ≠ 0)) =
    s.mergesAfter pre (s.entry e) := by
  simp only [State.mergesAfter, ← h.high]
  unfold Entry.asksFor
  rw [hrun]
  cases (s.entry e).prog.strobe with
  | none => simp
  | some u =>
    rw [Bool.eq_iff_iff]
    simp [and_assoc]

/-- A restart: the run begins again at `now` with its START taken (R45, R46, R47, R91). -/
theorem restarted {r : Entry} (hr : s.entry e = r) (hrun : r.state = .running)
    (hstart : r.start = some (.onTrigger n .every .restart)) (hp : r.progWithStaged.Lawful) (he : e ∈ (s.line n).subs) :
    t.entry e = r.restarted s.now (s.mergesAfter pre r) ∧
    (t.due.filter fun i => decide (i.entry = e)) = [⟨s.now + BitVec.ofNat 32 (r.progWithStaged.offsetAfter 0), e⟩] ∧
    (∀ k, r.prog.lane = some k → (s.lane k).owner = some e →
      t.lane k = { s.lane k with call := (r.progWithStaged.phaseOf 0).call }) ∧
    e ∈ (t.line n).subs := by
  have hw := h.entry_eq
  have hmerges := h.merges ((Entry.restartsRun_iff _).mpr ⟨hr ▸ hrun, n, hr ▸ hstart⟩)
  have hrecord := h.record
  have hitem := h.item
  have hlane : ∀ {k}, (s.lane k).owner = some e → _ := fun {k} => h.lane (k := k)
  obtain ⟨hsubs, hfound⟩ := h.subscribed
  rw [hr] at hw hmerges
  have hvisit : w.visit n w.now e = w.startInEvent e w.now true :=
    State.visit_of_running (hw ▸ hstart) n w.now (hw ▸ hrun) rfl
  have hf := w.restart_followed e
  rw [hvisit] at hrecord hitem hsubs hlane
  generalize w.startInEvent e w.now true = v at hf hrecord hitem hsubs hlane
  have hmerged := hf.strobe.2
  have hown := hf.record
  have hdue := hf.item.2
  have hcall := hf.call
  rw [hw, hmerges] at hmerged
  rw [hw, Entry.beginRun_takeStart r hp, h.now_eq] at hown hdue hcall
  refine ⟨?_, ?_, fun k hk ho => ?_, hsubs.mpr ?_⟩
  · rw [hrecord, hown, hmerged, ← hrun]
    rfl
  · exact hitem.trans hdue
  · obtain ⟨hafter, hbefore⟩ := hlane ho
    rw [hafter, hcall k, hbefore, if_pos ⟨hw ▸ hk, ho⟩]
  · rw [State.line, hf.lines]
    exact hfound.mpr he

end State.Visited

/-! ### The sample that is a qualified edge (R82, R83) -/

/-- The state in which the walk of a qualified edge begins: the pin and the accepted level have changed, and the sample is no
longer owed. -/
def State.edgeAccepted (s : State) (n : Fin 8) (a : Level) : State :=
  (s.setTrg n (otherLevel a)).setLine n
    { s.line n with sampleDue := false, accepted := some (otherLevel a), runLength := 0 }

section Edge

variable {s : State} {n : Fin 8} {a : Level}

theorem State.edgeAccepted_line : (s.edgeAccepted n a).line n =
    { s.line n with sampleDue := false, accepted := some (otherLevel a), runLength := 0 } := State.line_setLine_self _ _ _

/-- `edge` selects the change to the other level (R83). -/
theorem EdgeSelect.qualifies_otherLevel {edge : EdgeSelect}
    (h : edge = .both ∨ (edge = .rising ∧ a = .low) ∨ (edge = .falling ∧ a = .high)) : edge.qualifies (otherLevel a) = true := by
  rcases h with rfl | ⟨rfl, rfl⟩ | ⟨rfl, rfl⟩ <;> rfl

variable (hdue : (s.line n).sampleDue = true) (hacc : (s.line n).accepted = some a)
  (hdepth : (s.line n).depth ≤ (s.line n).runLength + 1) (hedge : (s.line n).edge.qualifies (otherLevel a) = true)
include hdue hacc hdepth hedge

/-- The K-th differing sample, where `edge` selects the change, is the walk (R82, R83, R88). -/
theorem State.takeSample_of_edge :
    (s.setTrg n (otherLevel a)).takeSample n (otherLevel a) = (s.edgeAccepted n a).walk n s.now := by
  have hother : a ≠ otherLevel a := by cases a <;> decide
  have hline : (s.setTrg n (otherLevel a)).line n = s.line n := rfl
  rw [State.takeSample, hline, if_pos hdue, State.filterSample, State.line_setLine_self, hacc]
  dsimp only
  rw [if_neg hother, if_pos hdepth, State.acceptChange, State.line_setLine_self, State.setLine_setLine]
  dsimp only
  rw [State.line_setLine_self, if_pos hedge]
  rfl

variable (hrun : s.inReset = false)
include hrun

theorem State.exec_triggerSample_of_edge :
    exec (.triggerSample n (otherLevel a)) s = .next ((s.edgeAccepted n a).walk n s.now) := by
  rw [← State.takeSample_of_edge hdue hacc hdepth hedge]
  change Host.Outcome.next (s.whenRunning _) = _
  rw [State.whenRunning_of_running hrun, if_pos hdue]

theorem State.exec_qualifiedEdge_of_edge : exec (.qualifiedEdge n) s = .next ((s.edgeAccepted n a).walk n s.now) := by
  rw [← State.takeSample_of_edge hdue hacc hdepth hedge]
  change Host.Outcome.next (s.whenRunning _) = _
  rw [State.whenRunning_of_running hrun, hacc]
  exact congrArg _ (if_pos ⟨hdue, decide_eq_true hdepth, hedge⟩)

end Edge

/-- Settles O19: the edge is the walk of the entries subscribed, each of which is visited once. -/
theorem qualifiedEdgeWalksTheList : Obligations.QualifiedEdgeWalksTheList := by
  unfold Obligations.QualifiedEdgeWalksTheList
  intro s n a hrun hdue l hacc hdepth hedge hnodup restarts asks merges
  have hqual := EdgeSelect.qualifies_otherLevel hedge
  have hexec := State.exec_qualifiedEdge_of_edge hdue hacc hdepth hqual hrun
  have hsubs : ((s.edgeAccepted n a).line n).subs = l.subs := by rw [State.edgeAccepted_line]
  have hwalked : (s.edgeAccepted n a).Walked ((s.edgeAccepted n a).walk n s.now) n l.subs :=
    hsubs ▸ (s.edgeAccepted n a).foldl_visit_walked n _ (hsubs ▸ hnodup)
  have hvisits : ∀ e ∈ l.subs, ∃ w, (s.edgeAccepted n a).Visited w ((s.edgeAccepted n a).walk n s.now) n e
      (l.subs.takeWhile fun x => decide (x ≠ e)) := fun e he =>
    hsubs ▸ State.walk_visits (s := s.edgeAccepted n a) (hsubs ▸ hnodup) (hsubs ▸ he)
  obtain ⟨-, -, -, -, haccepted, hlength, -⟩ := TriggerLine.fields_of_sameFilter (hwalked.frame.filters n)
  rw [State.edgeAccepted_line] at haccepted hlength
  obtain ⟨htime, htrips, -, hlink, -⟩ := hwalked.frame.outside
  refine ⟨hexec.trans (State.exec_triggerSample_of_edge hdue hacc hdepth hqual hrun).symm, _, hexec, ?_⟩
  generalize (s.edgeAccepted n a).walk n s.now = t at hwalked hvisits haccepted hlength htime htrips hlink
  refine ⟨haccepted, hlength, fun e he => ?_, fun k => ?_, hwalked.others, ?_, fun k hk => ?_, htime, htrips, hlink,
    hwalked.frame.dispatch⟩
  · obtain ⟨w, hv⟩ := hvisits e he
    have he' : e ∈ ((s.edgeAccepted n a).line n).subs := hsubs ▸ he
    refine ⟨fun hstate hstart => ?_, fun hevery hcase => hv.missed rfl hevery hcase he',
      fun hstate hstart hnone => hv.held rfl hstate hstart hnone he', fun hstate hstart hp => ?_⟩
    · obtain ⟨mode, policy, hstart⟩ := Start.eq_onTrigger hstart
      obtain ⟨hrec, hitem, hleft⟩ := hv.pending hstate hstart he'
      refine ⟨hrec, hitem, hleft.trans ?_⟩
      rw [Entry.isEvery_iff, hstart]
      cases mode <;> simp
    · exact hv.restarted rfl hstate hstart hp he'
  · have hk := hwalked.strobes k
    simp only [List.any_eq_true] at hk
    exact hk
  · exact hwalked.items _ fun i hi => by simpa using hi
  · exact hwalked.lanes k fun e he hr hl => absurd hl (hk e he hr)

end Sys2Proof.Machine
end

section
/-! SUPPORT. The law of the due list (R65 to R69): the instant at which a record's item is due, how lateness and order fare as
`now` advances, and the law with one entry's item left out while an event is at work on it. -/

namespace Sys2Proof.Machine

/-! ### The item of a record (R65) -/

/-- The instant at which a record's item is due, where its entry waits for a time (R65). -/
def Entry.dueAt (r : Entry) : Option Instant := if r.Waits then some r.nextInstant else none

theorem Entry.dueAt_eq_some_iff {r : Entry} {x : Instant} : r.dueAt = some x ↔ r.Waits ∧ r.nextInstant = x := by
  unfold Entry.dueAt
  split
  · next h => simp only [Option.some.injEq, h, true_and]
  · next h => exact ⟨nofun, fun c => absurd c.1 h⟩

theorem Entry.dueAt_of_waits {r : Entry} (h : r.Waits) : r.dueAt = some r.nextInstant := if_pos h

theorem Entry.waits_of_dueAt {r : Entry} (h : r.dueAt ≠ none) : r.Waits := by
  by_contra c
  exact h (if_neg c)

/-- An entry that waits for a time is scheduled (R65). -/
theorem Entry.scheduled_of_waits {r : Entry} (h : r.Waits) : r.scheduled = true := by
  rw [Entry.scheduled_iff]
  tauto

/-- An entry in FREE, IDLE or DONE has no item (R65). -/
theorem Entry.dueAt_of_not_scheduled {r : Entry} (h : r.scheduled = false) : r.dueAt = none :=
  if_neg fun c => Bool.noConfusion (h.symm.trans (Entry.scheduled_of_waits c))

/-- A running entry has an item (R65). -/
theorem Entry.dueAt_of_running {r : Entry} (h : r.state = .running ∨ r.state = .draining) : r.dueAt ≠ none := by
  rw [Entry.dueAt_of_waits (h.elim .inl fun c => .inr (.inl c))]
  exact Option.some_ne_none _

/-- A PENDING entry has an item only where its start is AT_TIME (R65). -/
theorem Entry.dueAt_of_pending {r : Entry} (hs : r.state = .pending) (hstart : r.start.any Start.isAtTime = false) :
    r.dueAt = none := by
  refine if_neg fun c => ?_
  rcases c with c | c | ⟨-, c⟩
  · rw [hs] at c; cases c
  · rw [hs] at c; cases c
  · rw [hstart] at c; cases c

/-! ### Instants as `now` advances (R4, R6, R66) -/

/-- Lateness is the signed difference below zero (R6). -/
theorem lateness_eq (x now : Instant) : lateness x now = (-signedDiff x now).toNat := by
  unfold lateness
  split
  · next h =>
    rw [isPast, decide_eq_true_eq] at h
    rw [signedDiff, BitVec.toInt_eq_toNat_cond]
    bv_omega
  · next h =>
    rw [isPast_iff] at h
    omega

/-- An instant not at the far end of the past comes one tick nearer as `now` advances (R4). -/
theorem signedDiff_succ {x now : Instant} (h : lateness x now ≤ 255) : signedDiff x (now + 1) = signedDiff x now - 1 := by
  rw [lateness_eq] at h
  have hx : x - (now + 1) = (x - now) - 1 := by ring
  unfold signedDiff at h ⊢
  rw [hx]
  generalize x - now = d at h ⊢
  have hd := d.isLt
  rw [BitVec.toInt_eq_toNat_cond] at h ⊢
  rw [BitVec.toInt_eq_toNat_cond, BitVec.toNat_sub, show BitVec.toNat (1 : Instant) = 1 from rfl]
  split_ifs at h ⊢ <;> omega

/-- An item is an entry and an instant. -/
theorem DueItem.eq_of {i j : DueItem} (he : i.entry = j.entry) (hd : i.due = j.due) : i = j := by
  cases i
  cases j
  cases he
  cases hd
  rfl

/-- No item stands before itself (R66). -/
theorem DueItem.before_irrefl (now : Instant) (i : DueItem) : i.before now i = false := by
  simp [DueItem.before]

/-! ### The law with one entry's item left out -/

/-- The law of the due list (R65, R66, R67), none of its items more than `b` ticks late, but for the item of the entry `out`, if
any, which an event is at work on. -/
structure State.DueBut (s : State) (out : Option (Fin 64)) (b : Nat) : Prop where
  items : ∀ i : DueItem, some i.entry ≠ out → (i ∈ s.due ↔ (s.entry i.entry).dueAt = some i.due)
  order : s.due.Pairwise fun i j => i.before s.now j = true
  late : ∀ i ∈ s.due, lateness i.due s.now ≤ b

/-- The whole law, with the bound `b`. -/
abbrev State.DueWithin (s : State) (b : Nat) : Prop := s.DueBut none b

/-- The bound of the law: 255 ticks, or 256 between a tick and the end of its dispatch (R67). -/
theorem State.dueLawful_iff (s : State) : s.DueLawful ↔ s.DueWithin (if s.dispatch = none then 255 else 256) := by
  constructor
  · rintro ⟨-, hitem, hall, horder, hlate⟩
    refine ⟨fun i _ => ⟨fun hi => ?_, fun hi => ?_⟩, horder, hlate⟩
    · obtain ⟨hnext, hwaits⟩ := hitem i hi
      exact Entry.dueAt_eq_some_iff.mpr ⟨hwaits, hnext⟩
    · obtain ⟨hwaits, hnext⟩ := Entry.dueAt_eq_some_iff.mp hi
      obtain ⟨j, hj, hje⟩ := hall i.entry hwaits
      have hjd : j.due = i.due := (hitem j hj).1.symm.trans (hje ▸ hnext)
      exact DueItem.eq_of hje hjd ▸ hj
  · rintro ⟨hitems, horder, hlate⟩
    have hitem : ∀ i ∈ s.due, (s.entry i.entry).Waits ∧ (s.entry i.entry).nextInstant = i.due := fun i hi =>
      Entry.dueAt_eq_some_iff.mp ((hitems i nofun).mp hi)
    refine ⟨?_, fun i hi => (hitem i hi).symm, fun e he => ?_, horder, hlate⟩
    · have hnodup : s.due.Nodup := horder.imp fun {i j} hij hne => by
        rw [hne, DueItem.before_irrefl] at hij
        cases hij
      refine hnodup.map_on fun i hi j hj hij => DueItem.eq_of hij ?_
      exact (hitem i hi).2.symm.trans (hij ▸ (hitem j hj).2)
    · exact ⟨⟨(s.entry e).nextInstant, e⟩, (hitems _ nofun).mpr (Entry.dueAt_of_waits he), rfl⟩

/-- What leaves the due list, `now` and every record's item as they were. -/
structure State.SameDues (s t : State) : Prop where
  due : t.due = s.due
  now : t.now = s.now
  entry : ∀ x : Fin 64, (t.entry x).dueAt = (s.entry x).dueAt

namespace State.SameDues

variable {s t u : State}

theorem refl (s : State) : s.SameDues s := ⟨rfl, rfl, fun _ => rfl⟩

theorem trans (h : s.SameDues t) (k : t.SameDues u) : s.SameDues u :=
  ⟨k.due.trans h.due, k.now.trans h.now, fun x => (k.entry x).trans (h.entry x)⟩

theorem of_entries (he : t.entries = s.entries) (hd : t.due = s.due) (hn : t.now = s.now) : s.SameDues t :=
  ⟨hd, hn, fun x => by rw [State.entry, State.entry, he]⟩

theorem ite {c : Prop} [Decidable c] (ht : s.SameDues t) (hu : s.SameDues u) : s.SameDues (if c then t else u) := by
  split
  · exact ht
  · exact hu

theorem setEntry {e : Fin 64} {r : Entry} (h : r.dueAt = (s.entry e).dueAt) : s.SameDues (s.setEntry e r) :=
  ⟨rfl, rfl, fun x => by
    rw [s.entry_setEntry]
    split
    · next hx => exact hx ▸ h
    · rfl⟩

theorem clearSuccessor (s : State) (p e : Fin 64) : s.SameDues (s.clearSuccessor p e) := .ite (.setEntry rfl) (.refl s)

theorem unlinkPredecessor (s : State) (e : Fin 64) : s.SameDues (s.unlinkPredecessor e) := by
  unfold State.unlinkPredecessor
  split
  · exact .clearSuccessor s _ _
  · exact .refl s

theorem unlink (s : State) (p y : Fin 64) : s.SameDues (s.unlink p y) :=
  (clearSuccessor s p y).trans (.ite (.setEntry rfl) (.refl _))

theorem unsubscribe (s : State) (e : Fin 64) : s.SameDues (s.unsubscribe e) := by
  obtain ⟨ls, h⟩ := s.unsubscribe_eq e
  rw [h]
  exact .of_entries rfl rfl rfl

theorem releaseLane (s : State) (e : Fin 64) (taker : Option (Fin 64)) : s.SameDues (s.releaseLane e taker) := by
  obtain ⟨ls, h⟩ := s.releaseLane_eq e taker
  rw [h]
  exact .of_entries rfl rfl rfl

theorem handLevel (s : State) (e : Fin 64) (c : Call) : s.SameDues (s.handLevel e c) := by
  obtain ⟨ls, h⟩ := s.handLevel_eq e c
  rw [h]
  exact .of_entries rfl rfl rfl

theorem serveStrobe (s : State) (e : Fin 64) (served : Bool) : s.SameDues (s.serveStrobe e served) := by
  refine ⟨?_, (s.serveStrobe_frame e served).now_eq, fun x => ?_⟩
  · obtain ⟨es, ks, h⟩ := s.serveStrobe_eq e served
    rw [h]
  · rw [s.serveStrobe_entry]
    split
    · next h => rw [h.1]; rfl
    · rfl

end State.SameDues

namespace State.DueBut

variable {s t : State} {out : Option (Fin 64)} {e : Fin 64} {b : Nat}

theorem same (h : s.DueBut out b) (k : s.SameDues t) : t.DueBut out b := by
  refine ⟨fun i hi => ?_, ?_, ?_⟩
  · rw [k.due, k.entry]
    exact h.items i hi
  · rw [k.due, k.now]
    exact h.order
  · rw [k.due, k.now]
    exact h.late

theorem mono (h : s.DueBut out b) {b' : Nat} (hb : b ≤ b') : s.DueBut out b' :=
  ⟨h.items, h.order, fun i hi => (h.late i hi).trans hb⟩

/-- An event begins its work on the item of an entry. -/
theorem opened (h : s.DueWithin b) (e : Fin 64) : s.DueBut (some e) b := ⟨fun i _ => h.items i nofun, h.order, h.late⟩

/-- The work on an entry that has no item, and waits for no time, is done (R65). -/
theorem closed (h : s.DueBut (some e) b) (hno : ∀ i ∈ s.due, i.entry ≠ e) (hr : (s.entry e).dueAt = none) :
    s.DueWithin b := by
  refine ⟨fun i _ => ?_, h.order, h.late⟩
  by_cases hi : i.entry = e
  · rw [hi, hr]
    exact ⟨fun c => absurd hi (hno i c), nofun⟩
  · exact h.items i fun c => hi (Option.some.inj c)

theorem setEntry (h : s.DueBut (some e) b) (r : Entry) : (s.setEntry e r).DueBut (some e) b := by
  refine ⟨fun i hi => ?_, h.order, h.late⟩
  rw [s.entry_setEntry_ne r fun c => hi (congrArg some c)]
  exact h.items i hi

/-- The item of the entry leaves the list (R69). -/
theorem removeDue (h : s.DueBut (some e) b) : (s.removeDue e).DueBut (some e) b := by
  refine ⟨fun i hi => ?_, h.order.filter _, fun i hi => h.late i (List.mem_filter.mp hi).1⟩
  have hne : i.entry ≠ e := fun c => hi (congrArg some c)
  rw [s.removeDue_due, List.mem_filter, decide_eq_true_eq, and_iff_left hne]
  exact h.items i hi

/-- The item of the entry joins the list at its place (R66, R68). -/
theorem joinDue (h : s.DueBut (some e) b) (hr : (s.entry e).dueAt ≠ none)
    (hl : lateness (s.entry e).nextInstant s.now ≤ b) : (s.joinDue e).DueWithin b := by
  refine ⟨fun i _ => ?_, s.joinDue_pairwise e h.order, fun i hi => ?_⟩
  · change i ∈ _ ↔ (s.entry i.entry).dueAt = some i.due
    rw [s.joinDue_mem_iff]
    by_cases hi : i.entry = e
    · rw [hi, Entry.dueAt_of_waits (Entry.waits_of_dueAt hr), Option.some.injEq]
      exact ⟨fun c => (c.resolve_right fun d => d.2 rfl) ▸ rfl, fun c => .inl (DueItem.eq_of hi c.symm)⟩
    · have hne : i ≠ ⟨(s.entry e).nextInstant, e⟩ := fun c => hi (congrArg DueItem.entry c)
      rw [or_iff_right hne, and_iff_left hi]
      exact h.items i fun c => hi (Option.some.inj c)
  · rcases (s.joinDue_mem_iff e i).mp hi with rfl | ⟨hi, -⟩
    · exact hl
    · exact h.late i hi

theorem removeDue_no_item (s : State) (e : Fin 64) : ∀ i ∈ (s.removeDue e).due, i.entry ≠ e := fun _ hi =>
  of_decide_eq_true (List.mem_filter.mp hi).2

end State.DueBut

end Sys2Proof.Machine
end

section
/-! SUPPORT. Each retirement, start, action and visit of the walk keeps the law of the due list (R65 to R69). -/

namespace Sys2Proof.Machine

/-- The record of a final action is scheduled until what follows the run retires it (R43, section 3.5). -/
theorem Entry.endOfRun_scheduled (r : Entry) (t : Instant) (skew : Nat) :
    (r.endOfRun t skew).scheduled = r.scheduled := rfl

/-- A strobe request schedules and retires no entry (R46). -/
theorem State.serveStrobe_scheduled (s : State) (e : Fin 64) (served : Bool) (x : Fin 64) :
    ((s.serveStrobe e served).entry x).scheduled = (s.entry x).scheduled := by
  rw [s.serveStrobe_entry]
  split
  · next h => rw [h.1]; rfl
  · rfl

namespace State.DueBut

variable {s : State} {e : Fin 64} {b : Nat}

/-! ### Retirement (R28, R69) -/

/-- An entry retires in an event that is at work on it: its item is gone. -/
theorem retireOne (h : s.DueBut (some e) b) (hs : (s.entry e).scheduled = true) (oc : EntryOutcome)
    (taker : Option (Fin 64)) : (s.retireOne e oc taker).DueWithin b := by
  unfold State.retireOne
  rw [if_pos hs]
  have hunlinked := h.same (.unlinkPredecessor s e)
  have hdone : (((s.unlinkPredecessor e).entry e).retired oc s.now).dueAt = none := rfl
  generalize ((s.unlinkPredecessor e).entry e).retired oc s.now = r at hdone ⊢
  have hnone : (((s.unlinkPredecessor e).setEntry e r).entry e).dueAt = none := by rwa [State.entry_setEntry_self]
  have hwritten := (hunlinked.setEntry r).removeDue
  exact ((hwritten.closed (removeDue_no_item _ e) hnone).same (.unsubscribe _ _)).same (.releaseLane _ _ _)

/-- A retirement keeps the law, whatever the entry. -/
theorem retired (h : s.DueWithin b) (e : Fin 64) (oc : EntryOutcome) (taker : Option (Fin 64)) :
    (s.retireOne e oc taker).DueWithin b := by
  by_cases hs : (s.entry e).scheduled = true
  · exact (h.opened e).retireOne hs oc taker
  · rwa [s.retireOne_of_not_scheduled oc taker (by simpa using hs)]

theorem breakFrom (k : Nat) {s : State} (h : s.DueWithin b) (y : Option (Fin 64)) : (s.breakFrom k y).DueWithin b := by
  induction k generalizing s y with
  | zero => exact h
  | succ k ih =>
    rcases y with _ | y
    · exact h
    · unfold State.breakFrom
      split
      · exact ih ((h.retired y _ _).same (.unlink _ _ _)) _
      · exact h.retired y _ _

theorem breakBehind (h : s.DueWithin b) (e : Fin 64) : (s.breakBehind e).DueWithin b := by
  unfold State.breakBehind
  split
  · exact breakFrom 64 (h.same (.unlink _ _ _)) _
  · exact h

/-- An entry retires in an event that is at work on it, and the chain behind it breaks. -/
theorem retireBroken (h : s.DueBut (some e) b) (hs : (s.entry e).scheduled = true) (oc : EntryOutcome) :
    (s.retireBroken e oc).DueWithin b := by
  rw [State.retireBroken_of_scheduled oc hs]
  exact (h.retireOne hs oc none).breakBehind e

/-- The trips of one event (R131, R132). -/
theorem takeTrips (h : s.DueWithin b) (trips : List Trip) : (s.takeTrips trips).DueWithin b := by
  obtain ⟨ls, hls⟩ := State.laneSteps_eq trips s
  have hl : s.SameDues (trips.foldl State.laneStep s) := by
    rw [hls]
    exact .of_entries rfl rfl rfl
  unfold State.takeTrips State.entryStep
  have hretired := List.foldlRecOn (motive := fun t : State => t.DueWithin b) ((List.finRange 64).filter (s.recordedBy trips))
    (fun t e => t.retireOne e .tripped none) (h.same hl) fun t ht e _ => ht.retired e _ _
  exact List.foldlRecOn (motive := fun t : State => t.DueWithin b) _ _ hretired fun t ht e _ => ht.breakBehind e

/-! ### Insertion (R67, R68) -/

/-- The item of an entry that waits for a time is inserted, or the entry retires OVERRUN (R67). -/
theorem insertItem (h : s.DueBut (some e) b) (hb : 255 ≤ b) (hr : (s.entry e).dueAt ≠ none) :
    (s.insertItem e).DueWithin b := by
  unfold State.insertItem
  split
  · exact h.removeDue.retireBroken (Entry.scheduled_of_waits (Entry.waits_of_dueAt hr)) _
  · next hl => exact h.joinDue hr ((Nat.le_of_not_lt hl).trans hb)

/-- A record that waits for a time is written, and its level, its strobe request and its item follow (R43, R49). -/
theorem setEntry_follow (h : s.DueBut (some e) b) (hb : 255 ≤ b) {r : Entry} (hr : r.dueAt ≠ none) (served : Bool) :
    ((s.setEntry e r).follow e served).DueWithin b := by
  have hd := (State.SameDues.handLevel (s.setEntry e r) e ((s.setEntry e r).entry e).callLevel).trans (.serveStrobe _ e served)
  refine ((h.setEntry r).same hd).insertItem hb ?_
  rwa [hd.entry, State.entry_setEntry_self]

/-- A run begins in an event (R47, R49). -/
theorem startInEvent (h : s.DueBut (some e) b) (hb : 255 ≤ b) (start : Instant) (unserved : Bool) :
    (s.startInEvent e start unserved).DueWithin b :=
  h.setEntry_follow hb (Entry.dueAt_of_running (.inl rfl)) _

/-! ### The end of a run (section 3.5, R119, R120) -/

theorem startSuccessor (h : s.DueWithin b) (hb : 255 ≤ b) (p y : Fin 64) (start : Instant) :
    (s.startSuccessor p y start).DueWithin b := by
  have hu : (s.unlink p y).DueWithin b := h.same (.unlink s p y)
  unfold State.startSuccessor
  dsimp only
  split
  · exact (hu.opened y).startInEvent hb _ _
  · exact hu

theorem retireWell (h : s.DueBut (some e) b) (hb : 255 ≤ b) (hs : (s.entry e).scheduled = true) (oc : EntryOutcome)
    (start : Instant) : (s.retireWell e oc start).DueWithin b := by
  unfold State.retireWell
  split
  · exact (h.retireOne hs _ _).startSuccessor hb _ _ _
  · exact h.retireOne hs _ _

/-- An EVERY entry returns to PENDING, where it waits for no time (R51). -/
theorem returnToPending (h : s.DueBut (some e) b) (hno : ∀ i ∈ s.due, i.entry ≠ e)
    (hstart : (s.entry e).start.any Start.isAtTime = false) : (s.returnToPending e).DueWithin b := by
  refine ((h.setEntry _).closed hno ?_).same (.handLevel _ _ _)
  rw [State.entry_setEntry_self]
  exact Entry.dueAt_of_pending rfl hstart

/-- What follows the end of a run whose item has been handed over (section 3.5). -/
theorem afterRun (h : s.DueBut (some e) b) (hb : 255 ≤ b) (hs : (s.entry e).scheduled = true)
    (hno : ∀ i ∈ s.due, i.entry ≠ e) (t : Instant) (served : Bool) : (s.afterRun e t served).DueWithin b := by
  unfold State.afterRun
  dsimp only
  split
  · exact h.retireWell hb hs _ _
  · split
    · next hstart _ => exact h.returnToPending hno (by rw [hstart]; rfl)
    · exact (h.setEntry _).startInEvent hb _ _
    · exact h.retireWell hb hs _ _

theorem actFinal (h : s.DueBut (some e) b) (hb : 255 ≤ b) (hs : (s.entry e).scheduled = true)
    (hno : ∀ i ∈ s.due, i.entry ≠ e) (t : Instant) : (s.actFinal e (s.entry e) t).DueWithin b := by
  have hd := State.SameDues.serveStrobe (s.setEntry e ((s.entry e).endOfRun t (skewOf s.now t))) e
    ((s.entry e).serves (s.entry e).prog.endAt false)
  refine ((h.setEntry _).same hd).afterRun hb ?_ (hd.due ▸ hno) _ _
  rwa [State.serveStrobe_scheduled, State.entry_setEntry_self, Entry.endOfRun_scheduled]

/-! ### The action (R43) -/

theorem actStart (h : s.DueBut (some e) b) (hb : 255 ≤ b) {r : Entry} (hr : r.state = .running ∨ r.state = .draining)
    (t : Instant) : (s.actStart e r t).DueWithin b := by
  unfold State.actStart
  refine h.setEntry_follow hb ?_ _
  exact Entry.dueAt_of_running hr

theorem actInside (h : s.DueBut (some e) b) (hb : 255 ≤ b) {r : Entry} (hr : r.state = .running ∨ r.state = .draining)
    (t : Instant) (o : Nat) : (s.actInside e r t o).DueWithin b := by
  unfold State.actInside
  refine h.setEntry_follow hb ?_ _
  exact Entry.dueAt_of_running hr

theorem actNewCycle (h : s.DueBut (some e) b) (hb : 255 ≤ b) {r : Entry} (hr : r.state = .running ∨ r.state = .draining)
    (t : Instant) : (s.actNewCycle e r t).DueWithin b := by
  unfold State.actNewCycle
  refine h.setEntry_follow hb ?_ _
  exact Entry.dueAt_of_running hr

theorem actRunning (h : s.DueBut (some e) b) (hb : 255 ≤ b)
    (hr : (s.entry e).state = .running ∨ (s.entry e).state = .draining) (hno : ∀ i ∈ s.due, i.entry ≠ e) (t : Instant) :
    (s.actRunning e t).DueWithin b := by
  unfold State.actRunning
  dsimp only
  split
  · exact h.actStart hb hr t
  · split
    · split
      · exact h.actFinal hb (Entry.scheduled_of_waits (Entry.waits_of_dueAt (Entry.dueAt_of_running hr))) hno t
      · exact h.actNewCycle hb hr t
    · exact h.actInside hb hr t _

/-- An action: the item handed over leaves the list, and the action hands back another or none (R43, R69). -/
theorem takeAction (h : s.DueWithin b) (hb : 255 ≤ b) (e : Fin 64) (t : Instant) : (s.takeAction e t).DueWithin b := by
  have ho := (h.opened e).removeDue
  have hno := removeDue_no_item s e
  have hstays : ((s.removeDue e).entry e).scheduled = false → (s.removeDue e).DueWithin b := fun hs =>
    ho.closed hno (Entry.dueAt_of_not_scheduled hs)
  unfold State.takeAction
  dsimp only
  split
  · exact ho.actStart hb (.inl rfl) t
  · next hr => exact ho.actRunning hb (.inl hr) hno t
  · next hr => exact ho.actRunning hb (.inr hr) hno t
  · next hr => exact hstays (by simp [Entry.scheduled, hr])
  · next hr => exact hstays (by simp [Entry.scheduled, hr])
  · next hr => exact hstays (by simp [Entry.scheduled, hr])

/-! ### The walk (R88 to R92) -/

theorem triggerStart (h : s.DueWithin b) (hb : 255 ≤ b) (n : Fin 8) (e : Fin 64) (mode : Mode) (stamp : Instant) :
    (s.triggerStart n e mode stamp).DueWithin b := by
  have hbegun := (h.opened e).setEntry ((s.entry e).beginRun stamp)
  have hwaits : ((s.setEntry e ((s.entry e).beginRun stamp)).entry e).dueAt ≠ none := by
    rw [State.entry_setEntry_self]
    exact Entry.dueAt_of_running (.inl rfl)
  unfold State.triggerStart
  cases mode
  · have hleft : (s.setEntry e ((s.entry e).beginRun stamp)).SameDues
        ((s.setEntry e ((s.entry e).beginRun stamp)).unsubscribeFrom n e) := .of_entries rfl rfl rfl
    exact (hbegun.same hleft).insertItem hb hwaits
  · exact hbegun.insertItem hb hwaits

theorem visit (h : s.DueWithin b) (hb : 255 ≤ b) (n : Fin 8) (stamp : Instant) (e : Fin 64) :
    (s.visit n stamp e).DueWithin b := by
  have hmiss : (s.setEntry e (s.entry e).missTrigger).DueWithin b := h.same (.setEntry rfl)
  unfold State.visit
  repeat' split
  · exact h.triggerStart hb n e _ stamp
  · unfold State.retrigger
    split
    · exact hmiss
    · exact (h.opened e).startInEvent hb _ _
    · split
      · exact hmiss
      · exact h.same (.setEntry rfl)
  · exact hmiss
  · exact h
  · exact h

theorem walk (h : s.DueWithin b) (hb : 255 ≤ b) (n : Fin 8) (stamp : Instant) : (s.walk n stamp).DueWithin b :=
  List.foldlRecOn (motive := fun t : State => t.DueWithin b) _ _ h fun _ ht e _ => ht.visit hb n stamp e

end State.DueBut

end Sys2Proof.Machine
end

section
/-! SUPPORT. The dispatch and the tick event keep the law of the due list (R66, R67, R70, R71): the overrun step leaves no item
more than 255 ticks late, and a tick makes every item one tick later. -/

namespace Sys2Proof.Machine

/-! ### The overrun step (R71) -/

theorem State.overdueHead_eq_some_iff {s : State} {i : DueItem} :
    s.overdueHead = some i ↔ s.due.head? = some i ∧ 255 < lateness i.due s.now := by
  unfold State.overdueHead
  rcases s.due with _ | ⟨j, rest⟩
  · exact ⟨nofun, fun c => nomatch c.1⟩
  · dsimp only [List.head?_cons]
    split
    · next h =>
      refine ⟨fun c => ⟨c, ?_⟩, And.left⟩
      cases c
      exact h
    · next h =>
      refine ⟨nofun, fun ⟨c, hl⟩ => ?_⟩
      cases c
      exact absurd hl h

theorem State.overdueHead_eq_none_iff {s : State} :
    s.overdueHead = none ↔ ∀ i ∈ s.due.head?, lateness i.due s.now ≤ 255 := by
  simp only [Option.eq_none_iff_forall_ne_some, ne_eq, State.overdueHead_eq_some_iff, not_and, Nat.not_lt, Option.mem_def]

theorem State.overdueHead_mem {s : State} {i : DueItem} (h : s.overdueHead = some i) : i ∈ s.due :=
  List.mem_of_head? (State.overdueHead_eq_some_iff.mp h).1

/-- An overrun handing with no overdue head changes nothing (R71). -/
theorem State.overrunOne_of_none {s : State} (h : s.overdueHead = none) : s.overrunOne = s := by
  rw [State.overrunOne, h]

theorem State.overrunStep_of_none {s : State} (h : s.overdueHead = none) (k : Nat) : s.overrunStep k = s := by
  induction k with
  | zero => rfl
  | succ k ih => rw [State.overrunStep, State.overrunOne_of_none h, ih]

/-- A retirement that breaks chains adds no item (R69). -/
theorem State.retireBroken_due_length (s : State) (e : Fin 64) (oc : EntryOutcome) :
    (s.retireBroken e oc).due.length ≤ s.due.length := by
  by_cases h : (s.entry e).scheduled = true
  · rw [(State.retireBroken_walking oc h).breaking.due]
    exact List.length_filter_le _ _
  · rw [State.retireBroken, if_neg h]

/-- An overrun handing takes the overdue head away (R71). -/
theorem State.overrunOne_due_length {s : State} {i : DueItem} (h : s.overdueHead = some i) :
    s.overrunOne.due.length < s.due.length := by
  rw [State.overrunOne, h]
  have hgone : ∃ j ∈ s.due, ¬ decide (j.entry ≠ i.entry) = true := ⟨i, State.overdueHead_mem h, by simp⟩
  exact (State.retireBroken_due_length _ _ _).trans_lt (List.length_filter_lt_length_iff_exists.mpr hgone)

/-- As many handings as the list has items, or more, leave no overdue head (R71). -/
theorem State.overrunStep_overdueHead {k : Nat} {s : State} (h : s.due.length ≤ k) : (s.overrunStep k).overdueHead = none := by
  induction k generalizing s with
  | zero => rw [State.overrunStep, State.overdueHead, List.length_eq_zero_iff.mp (Nat.le_zero.mp h)]
  | succ k ih =>
    rw [State.overrunStep]
    rcases ho : s.overdueHead with _ | i
    · rw [State.overrunOne_of_none ho, State.overrunStep_of_none ho, ho]
    · exact ih (Nat.le_of_lt_succ ((State.overrunOne_due_length ho).trans_le h))

namespace State.DueBut

variable {s : State} {b : Nat}

theorem overrunOne (h : s.DueWithin b) : s.overrunOne.DueWithin b := by
  unfold State.overrunOne
  split
  · next i hi =>
    have hdue := (h.items i nofun).mp (State.overdueHead_mem hi)
    have hwaits := Entry.waits_of_dueAt (hdue ▸ Option.some_ne_none _)
    exact (h.opened i.entry).removeDue.retireBroken (Entry.scheduled_of_waits hwaits) _
  · exact h

theorem overrunStep (k : Nat) {s : State} (h : s.DueWithin b) : (s.overrunStep k).DueWithin b := by
  induction k generalizing s with
  | zero => exact h
  | succ k ih => exact ih h.overrunOne

/-- Where the head is not overdue no item is, since the list is in order (R66, R71). -/
theorem within_of_overdueHead (h : s.DueWithin b) (ho : s.overdueHead = none) : s.DueWithin 255 := by
  have horder := h.order
  rw [State.overdueHead_eq_none_iff] at ho
  refine ⟨h.items, h.order, fun i hi => ?_⟩
  rcases hd : s.due with _ | ⟨j, rest⟩ <;> rw [hd] at hi ho horder
  · cases hi
  · have hj : lateness j.due s.now ≤ 255 := ho j rfl
    rcases List.mem_cons.mp hi with rfl | hi
    · exact hj
    · have hji := (List.pairwise_cons.mp horder).1 i hi
      simp only [DueItem.before, Bool.or_eq_true, Bool.and_eq_true, decide_eq_true_eq] at hji
      rw [lateness_eq] at hj ⊢
      omega

/-! ### The action step (R72) -/

theorem actionOne (h : s.DueWithin b) (hb : 255 ≤ b) : s.actionOne.DueWithin b := by
  have hset : ∀ d, s.SameDues (s.setDispatch d) := fun _ => .of_entries rfl rfl rfl
  unfold State.actionOne
  split
  · exact (h.same (hset _)).takeAction hb _ _
  · exact h

theorem actionStep (k : Nat) {s : State} (h : s.DueWithin b) (hb : 255 ≤ b) : (s.actionStep k).DueWithin b := by
  induction k generalizing s with
  | zero => exact h
  | succ k ih => exact ih (h.actionOne hb)

/-! ### The parts of a tick event (R2) -/

/-- A dispatch ends with no item more than 255 ticks late (R67, R70). -/
theorem finishDispatch (h : s.DueWithin b) (hd : s.dispatch ≠ none) : s.finishDispatch.DueWithin 255 := by
  rw [State.finishDispatch, if_pos (Option.isSome_iff_ne_none.mpr hd)]
  have hover := (DueBut.overrunStep s.due.length h).within_of_overdueHead (State.overrunStep_overdueHead (Nat.le_refl _))
  exact (hover.actionStep _ (Nat.le_refl _)).same (.of_entries rfl rfl rfl)

theorem takeSample (h : s.DueWithin b) (hb : 255 ≤ b) (n : Fin 8) (level : Level) : (s.takeSample n level).DueWithin b := by
  have hline : ∀ {t : State} (r : TriggerLine), t.DueWithin b → (t.setLine n r).DueWithin b := fun r ht =>
    ht.same (.of_entries rfl rfl rfl)
  unfold State.takeSample State.filterSample State.acceptChange
  dsimp only
  repeat' split
  · exact hline _ (hline _ h)
  · exact hline _ (hline _ h)
  · exact (hline _ (hline _ h)).walk hb _ _
  · exact hline _ (hline _ h)
  · exact hline _ (hline _ h)
  · exact h

/-- A tick makes every item one tick later, and keeps their order (R1, R66). -/
theorem beginTick (h : s.DueWithin 255) (levels : BitVec 8) : (s.beginTick levels).DueWithin 256 := by
  obtain ⟨ls, ks, hs⟩ := s.beginTick_eq levels
  rw [hs]
  refine ⟨h.items, h.order.imp_of_mem fun {i j} hi hj hij => ?_, fun i hi => ?_⟩
  · simp only [DueItem.before, Bool.or_eq_true, Bool.and_eq_true, decide_eq_true_eq] at hij ⊢
    rw [signedDiff_succ (h.late i hi), signedDiff_succ (h.late j hj)]
    omega
  · have hi := h.late i hi
    rw [lateness_eq, signedDiff_succ hi]
    rw [lateness_eq] at hi
    omega

end State.DueBut

namespace State.DueLawful

variable {s t : State}

/-! ### The law and its bound -/

theorem of_within (h : s.DueWithin 255) : s.DueLawful := by
  rw [State.dueLawful_iff]
  split
  · exact h
  · exact h.mono (by decide)

theorem within (h : s.DueLawful) (hd : s.dispatch = none) : s.DueWithin 255 := by
  rwa [State.dueLawful_iff, if_pos hd] at h

theorem within_tick (h : s.DueLawful) : s.DueWithin 256 := by
  rw [State.dueLawful_iff] at h
  split at h
  · exact h.mono (by decide)
  · exact h

/-- An event that keeps the law with any bound, and ends no dispatch, keeps the law. -/
theorem keep (h : s.DueLawful) (hk : ∀ b, 255 ≤ b → s.DueWithin b → t.DueWithin b)
    (hd : t.dispatch = none → s.dispatch = none) : t.DueLawful := by
  rw [State.dueLawful_iff]
  split
  · next ht => exact hk 255 (Nat.le_refl _) (h.within (hd ht))
  · exact hk 256 (by decide) h.within_tick

theorem same (h : s.DueLawful) (k : s.SameDues t) (hd : t.dispatch = s.dispatch) : t.DueLawful :=
  h.keep (fun _ _ hw => hw.same k) fun ht => hd.symm.trans ht

/-! ### The tick event (R1, R2) -/

theorem takeSample (h : s.DueLawful) (n : Fin 8) (level : Level) : (s.takeSample n level).DueLawful := by
  refine h.keep (fun _ hb hw => hw.takeSample hb n level) fun hd => ?_
  by_cases hs : (s.line n).sampleDue = true
  · exact (s.takeSample_frame n level hs).dispatch.symm.trans hd
  · rwa [State.takeSample, if_neg hs] at hd

theorem takeUnit (h : s.DueLawful) (u : TickUnit) : (s.takeUnit u).DueLawful := by
  cases u with
  | dispatch =>
    by_cases hd : s.dispatch = none
    · rw [State.takeUnit, State.finishDispatch, hd]
      exact h
    · exact of_within (h.within_tick.finishDispatch hd)
  | sample n => exact h.takeSample n _
  | countdown k => exact h.same (.ite (.of_entries rfl rfl rfl) (.refl s)) (s.countdown_frame k).dispatch

theorem takeUnits (h : s.DueLawful) (units : List TickUnit) : (s.takeUnits units).DueLawful :=
  List.foldlRecOn (motive := State.DueLawful) units State.takeUnit h fun _ ht u _ => ht.takeUnit u

/-- A part that has settled has ended its dispatch (R2). -/
theorem settle (h : s.DueLawful) : s.settle.DueWithin 255 := (h.takeUnits tickUnits).within s.settle_tickWhole.1

theorem tick (h : s.DueLawful) (levels : BitVec 8) (order : List TickUnit) : (s.tick levels order).DueLawful := by
  have hbegun : (s.settle.beginTick levels).DueLawful := by
    obtain ⟨ls, ks, hs⟩ := s.settle.beginTick_eq levels
    rw [State.dueLawful_iff, if_neg (by rw [hs]; exact Option.some_ne_none _)]
    exact h.settle.beginTick levels
  exact hbegun.takeUnits order

/-- A tick event that takes its dispatch leaves no item more than 255 ticks late (R67, R70). -/
theorem tick_within (h : s.DueLawful) (levels : BitVec 8) {order : List TickUnit} (ho : .dispatch ∈ order) :
    (s.tick levels order).DueWithin 255 :=
  (h.tick levels order).within (State.takeUnits_notOwed order _ .dispatch (.inl ho))

end State.DueLawful

end Sys2Proof.Machine
end

section
/-! SUPPORT. Every request keeps the law of the due list (R68, R69): those of the entries insert and remove items, SET_TIME is
accepted only where there are none (R9), and the others touch neither the list nor what it rests on. -/

namespace Sys2Proof.Machine

/-- An empty list is lawful where no entry waits for a time (R65). -/
theorem State.DueBut.of_empty {s : State} (hd : s.due = []) (he : ∀ x, (s.entry x).dueAt = none) (b : Nat) : s.DueWithin b := by
  refine ⟨fun i _ => ?_, ?_, ?_⟩
  · rw [hd, he]
    exact ⟨nofun, nofun⟩
  · rw [hd]
    exact .nil
  · rw [hd]
    exact nofun

section Entries

variable {s t : State} {b : Nat}

theorem withEntry_due {byte : Byte} {f : Fin 64 → State × Answer} (h : s.DueWithin b) (hf : ∀ e, (f e).1.DueWithin b) :
    (withEntry byte s f).1.DueWithin b :=
  withEntry_ind (P := fun r => r.1.DueWithin b) _ _ _ h hf

/-- A record that has no item is written over with one that has none. -/
theorem State.SameDues.setEntry_unscheduled {e : Fin 64} {r : Entry} (hs : (s.entry e).scheduled = false)
    (hr : r.dueAt = none) : s.SameDues (s.setEntry e r) :=
  .setEntry (hr.trans (Entry.dueAt_of_not_scheduled hs).symm)

theorem reqDefine_due (h : s.DueWithin b) (entry lane : Byte) (d w p : Ticks) (n : Count) (strobe notify : Byte) :
    (reqDefine entry lane d w p n strobe notify s).1.DueWithin b := by
  refine withEntry_due h fun e => ?_
  repeat' split
  · exact h
  · next hr _ _ _ _ =>
    refine h.same (.setEntry_unscheduled ?_ rfl)
    rcases hr with hr | hr <;> simp [Entry.scheduled, hr]
  · exact h
  · exact h

/-! ### SCHEDULE and SCHEDULE_SET (R22, R68, R124) -/

theorem State.SameDues.claimLane {e : Fin 64} {start : Start} (h : s.claimLane e start = .ok t) : s.SameDues t := by
  unfold State.claimLane at h
  repeat' split at h
  · exact Except.ok.inj h ▸ .refl s
  · exact Except.ok.inj h ▸ .of_entries rfl rfl rfl
  · cases h

/-- An AT_TIME start waits for its time, and the other starts do not (R65). -/
theorem Entry.scheduleAt_dueAt (r : Entry) (start : Start) (now : Instant) :
    (r.scheduleAt start now).dueAt ≠ none ↔ start.isAtTime = true := by
  cases start with
  | atTime t late =>
    refine ⟨fun _ => rfl, fun _ => ?_⟩
    have hwaits : (r.scheduleAt (.atTime t late) now).Waits := by
      unfold Entry.scheduleAt
      dsimp only
      split <;> exact .inr (.inr ⟨rfl, rfl⟩)
    rw [Entry.dueAt_of_waits hwaits]
    exact Option.some_ne_none _
  | onTrigger n m p => exact ⟨fun c => absurd (Entry.dueAt_of_pending rfl rfl) c, nofun⟩
  | after p => exact ⟨fun c => absurd (Entry.dueAt_of_pending rfl rfl) c, nofun⟩

theorem State.DueBut.place (h : s.DueWithin b) (hb : 255 ≤ b) {e : Fin 64} (hi : (s.entry e).state = .idle)
    (start : Start) : (s.place e start).DueWithin b := by
  have hs : (s.entry e).scheduled = false := by simp [Entry.scheduled, hi]
  have hdue := (s.entry e).scheduleAt_dueAt start s.now
  have hwrite : start.isAtTime = false → s.SameDues (s.setEntry e ((s.entry e).scheduleAt start s.now)) := fun c =>
    .setEntry_unscheduled hs (not_not.mp (mt hdue.mp (by simp [c])))
  unfold State.place
  cases start with
  | atTime t late =>
    refine ((h.opened e).setEntry _).insertItem hb ?_
    rw [State.entry_setEntry_self]
    exact hdue.mpr rfl
  | onTrigger n m p => exact h.same ((hwrite rfl).trans (.of_entries rfl rfl rfl))
  | after p => exact h.same ((hwrite rfl).trans (.setEntry rfl))

theorem State.scheduleChecked_due (h : s.DueWithin b) (hb : 255 ≤ b) {e : Fin 64} {f : StartFields}
    (hi : (s.entry e).state = .idle) (ht : s.scheduleChecked e f = .ok t) : t.DueWithin b := by
  unfold State.scheduleChecked at ht
  split at ht
  · cases ht
  · split at ht
    · cases ht
    · next u hu =>
      split at ht
      · cases ht
      · have he : u.entry e = s.entry e := by rw [State.entry, State.entry, State.claimLane_entries hu]
        rw [← Except.ok.inj ht]
        exact (h.same (.claimLane hu)).place hb (by rwa [he]) _

theorem State.scheduleMembers_due {f : StartFields} {members : List Byte} {k : Nat} {s t : State} (h : s.DueWithin b)
    (hb : 255 ≤ b) (ht : s.scheduleMembers f k members = .ok t) : t.DueWithin b := by
  induction members generalizing s k with
  | nil => exact Except.ok.inj ht ▸ h
  | cons byte rest ih =>
    unfold State.scheduleMembers State.scheduleMember at ht
    split at ht
    · next hm =>
      repeat' split at hm
      · cases hm
      · next hi => exact ih (State.scheduleChecked_due h hb hi hm) ht
      · cases hm
    · cases ht

theorem reqSchedule_due (h : s.DueWithin b) (hb : 255 ≤ b) (entry kind : Byte) (block : StartBlock) :
    (reqSchedule entry kind block s).1.DueWithin b := by
  refine withEntry_due h fun e => ?_
  repeat' split
  · exact h
  · next hi _ _ _ _ _ ht => exact State.scheduleChecked_due h hb hi ht
  · exact h
  · exact h

theorem reqScheduleSet_due (h : s.DueWithin b) (hb : 255 ≤ b) (count kind : Byte) (block : StartBlock) (members : List Byte) :
    (reqScheduleSet count kind block members s).1.DueWithin b := by
  unfold reqScheduleSet
  repeat' split
  · exact h
  · exact h
  · exact h
  · next ht => exact State.scheduleMembers_due h hb ht
  · exact h

/-! ### AMEND, DRAIN, CANCEL, ACK and RELEASE -/

/-- An AMEND leaves the item where it stands (R69). -/
theorem reqAmend_due (h : s.DueWithin b) (entry mask : Byte) (d w p : Ticks) (n : Count) :
    (reqAmend entry mask d w p n s).1.DueWithin b := by
  refine withEntry_due h fun e => ?_
  dsimp only
  repeat' split
  · exact h
  · exact h
  · exact h.same (.setEntry rfl)
  · exact h
  · exact h
  · exact h
  · exact h
  · exact h.same (.setEntry rfl)
  · exact h
  · exact h

theorem Entry.discardHeld_nextInstant (r : Entry) : r.discardHeld.nextInstant = r.nextInstant := by
  unfold Entry.discardHeld
  split <;> rfl

/-- A RUNNING entry that becomes DRAINING keeps its item; a PENDING one retires (R59, R60, R69). -/
theorem reqDrain_due (h : s.DueWithin b) (hb : 255 ≤ b) (entry : Byte) : (reqDrain entry s).1.DueWithin b := by
  refine withEntry_due h fun e => ?_
  dsimp only
  split
  · next hr =>
    refine h.same (.setEntry ?_)
    rw [Entry.dueAt_of_waits (.inl hr), Entry.dueAt_of_waits (.inr (.inl rfl))]
    exact congrArg some (Entry.discardHeld_nextInstant _)
  · split
    · next hp => exact (h.opened e).retireWell hb ((Entry.scheduled_iff _).mpr (.inl hp.1)) _ _
    · exact h

theorem reqCancel_due (h : s.DueWithin b) (entry : Byte) : (reqCancel entry s).1.DueWithin b :=
  withEntry_due h fun e => by
    split
    · next hs => exact (h.opened e).retireBroken hs _
    · exact h

theorem reqAck_due (h : s.DueWithin b) (entry : Byte) : (reqAck entry s).1.DueWithin b :=
  withEntry_due h fun e => by
    split
    · next hd => exact h.same (.setEntry_unscheduled (Entry.scheduled_of_done hd) rfl)
    · exact h

theorem reqRelease_due (h : s.DueWithin b) (entry : Byte) : (reqRelease entry s).1.DueWithin b :=
  withEntry_due h fun e => by
    split
    · next hr =>
      refine h.same (.setEntry_unscheduled ?_ rfl)
      rcases hr with hr | hr <;> simp [Entry.scheduled, hr]
    · exact h

/-! ### The requests of the other owners -/

theorem reqTrip_due (h : s.DueWithin b) (g : LaneGroup) : (reqTrip g s).1.DueWithin b := by
  have hsoft : s.SameDues (s.setSoft (s.soft.tripped g)) := .of_entries rfl rfl rfl
  unfold reqTrip
  split
  · exact h
  · exact (h.same hsoft).takeTrips _

/-- SOFT_RESET empties the list (R37, R80). -/
theorem reqSoftReset_due (s : State) (b : Nat) : (reqSoftReset s).1.DueWithin b := by
  refine .of_empty ?_ (fun x => by rw [reqSoftReset_entry]; rfl) b
  obtain ⟨ks, hk⟩ := ((s.freeEntries.setDue []).setDispatch none).clearSubscriptions_eq
  obtain ⟨ls, hl⟩ := (((s.freeEntries.setDue []).setDispatch none).clearSubscriptions).clearClaims_eq
  rw [reqSoftReset, hl, hk]
  rfl

/-- SET_TIME is accepted only where no entry is scheduled, and so no item is in the list (R9). -/
theorem reqSetTime_due (h : s.DueWithin b) (value : Instant) : (reqSetTime value s).1.DueWithin b := by
  unfold reqSetTime
  split
  · exact h
  · next hb =>
    have hidle : ∀ x, (s.entry x).dueAt = none := fun x => by
      refine Entry.dueAt_of_not_scheduled (Bool.eq_false_iff.mpr fun c => hb ?_)
      exact List.any_eq_true.mpr ⟨x, List.mem_finRange x, c⟩
    have hempty : s.due = [] := List.eq_nil_iff_forall_not_mem.mpr fun i hi => by
      have hi := (h.items i nofun).mp hi
      rw [hidle] at hi
      cases hi
    exact State.DueBut.of_empty (s := s.restartTick value) hempty hidle b

theorem State.releaseTrip_sameDues (s : State) (src : TripId) : s.SameDues (s.releaseTrip src) := by
  obtain ⟨ls, h⟩ := s.releaseTrip_eq src
  rw [h]
  exact .of_entries rfl rfl rfl

theorem State.setTrip_sameDues (s : State) (i : TripInput) (r : TripSource) : s.SameDues (s.setTrip i r) := by
  cases i <;> exact .of_entries rfl rfl rfl

theorem State.clearSource_sameDues (s : State) (src : TripId) : s.SameDues (s.clearSource src) := by
  have hsoft : ∀ r, s.SameDues (s.setSoft r) := fun _ => .of_entries rfl rfl rfl
  cases src
  · exact (s.setTrip_sameDues .a _).trans (State.releaseTrip_sameDues _ _)
  · exact (s.setTrip_sameDues .b _).trans (State.releaseTrip_sameDues _ _)
  · exact (hsoft _).trans (State.releaseTrip_sameDues _ _)

/-- The requests that work on no entry and set no time leave the due list alone. -/
theorem serve_sameDues {c : Instr} {r : State × Answer} (h : serve c s = some r) (hc : worksOnEntries c = false)
    (ht : ∀ tag v, c ≠ .setTime tag v) : s.SameDues r.1 := by
  have hline : ∀ n r, s.SameDues (s.setLine n r) := fun _ _ => .of_entries rfl rfl rfl
  have hlane : ∀ l r, s.SameDues (s.setLane l r) := fun _ _ => .of_entries rfl rfl rfl
  have hstrobe : ∀ k r, s.SameDues (s.setStrobe k r) := fun _ _ => .of_entries rfl rfl rfl
  have hdivider : ∀ m, s.SameDues (s.recordDivider m) := fun _ => .of_entries rfl rfl rfl
  cases c <;> cases h
  case nop | readTime | summary => exact .refl s
  case query => exact withEntry_ind (P := fun r => s.SameDues r.1) _ _ _ (.refl s) fun _ => .refl s
  case setTime tag v => exact absurd rfl (ht tag v)
  case setDivider =>
    unfold reqSetDivider
    repeat' split
    · exact .refl s
    · exact .refl s
    · exact hdivider _
  case triggerConfig =>
    unfold reqTriggerConfig
    split
    · exact hline _ _
    · exact .refl s
  case laneConfig =>
    unfold reqLaneConfig
    repeat' split
    · exact .refl s
    · exact hlane _ _
    · exact .refl s
  case laneSet =>
    unfold reqLaneSet
    repeat' split
    · exact .refl s
    · exact .refl s
    · exact hlane _ _
    · exact .refl s
  case laneQuery => unfold reqLaneQuery; split <;> exact .refl s
  case strobeConfig =>
    unfold reqStrobeConfig
    repeat' split
    · exact .refl s
    · exact hstrobe _ _
    · exact .refl s
  case tripConfig =>
    unfold reqTripConfig
    repeat' split
    · exact .refl s
    · exact s.setTrip_sameDues _ _
    · exact .refl s
  case clearTrip =>
    unfold reqClearTrip
    repeat' split
    · exact .refl s
    · exact s.clearSource_sameDues _
    · exact .refl s
    · exact .refl s
  all_goals exact Bool.noConfusion hc

/-- Every owner of a request keeps the law of the due list. -/
theorem serve_due {c : Instr} {r : State × Answer} (hr : serve c s = some r) (h : s.DueWithin b) (hb : 255 ≤ b) :
    r.1.DueWithin b := by
  have hrest : worksOnEntries c = false → (∀ tag v, c ≠ .setTime tag v) → r.1.DueWithin b := fun hc ht =>
    h.same (serve_sameDues hr hc ht)
  cases c <;> cases hr
  case define => exact reqDefine_due h _ _ _ _ _ _ _ _
  case schedule => exact reqSchedule_due h hb _ _ _
  case scheduleSet => exact reqScheduleSet_due h hb _ _ _ _
  case amend => exact reqAmend_due h _ _ _ _ _ _
  case drain => exact reqDrain_due h hb _
  case cancel => exact reqCancel_due h _
  case ack => exact reqAck_due h _
  case release => exact reqRelease_due h _
  case trip => exact reqTrip_due h _
  case softReset => exact reqSoftReset_due s b
  case setTime => exact reqSetTime_due h _
  all_goals exact hrest rfl nofun

end Entries

end Sys2Proof.Machine
end

section
/-! SUPPORT. Every command and every CLK edge keeps the law of the due list (R65 to R69). -/

namespace Sys2Proof.Machine

namespace State.DueBut

variable {s : State} {b : Nat}

theorem changeSource (h : s.DueWithin b) (i : TripInput) (r : TripSource) : (s.changeSource i r).DueWithin b :=
  (h.same (s.setTrip_sameDues i r)).takeTrips _

theorem setTripPin (h : s.DueWithin b) (i : TripInput) (level : Level) : (s.setTripPin i level).DueWithin b := by
  cases i <;> exact h.same (.of_entries rfl rfl rfl)

end State.DueBut

namespace State.DueLawful

variable {s t : State}

theorem ite {c : Prop} [Decidable c] (hs : s.DueLawful) (ht : t.DueLawful) : (if c then s else t).DueLawful := by
  split
  · exact hs
  · exact ht

/-! ### The commands that are no requests -/

theorem blocksReset (s : State) (pins : Pins) (transaction : Transaction) : (s.blocksReset pins transaction).DueLawful :=
  of_within (State.DueBut.of_empty (s := s.blocksReset pins transaction) rfl
    (fun x => congrArg Entry.dueAt (State.reset_entry x)) 255)

theorem overrun (h : s.DueLawful) : s.overrunOne.DueLawful :=
  h.keep (fun _ _ hw => hw.overrunOne) fun hd => s.overrunOne_frame.dispatch.symm.trans hd

/-- A handing of the action step ends no dispatch (R72). -/
theorem action (h : s.DueLawful) : s.actionOne.DueLawful := by
  refine h.keep (fun _ hb hw => hw.actionOne hb) fun hd => ?_
  unfold State.actionOne at hd
  split at hd
  · exact absurd ((State.takeAction_frame _ _ _).dispatch.symm.trans hd) (Option.some_ne_none _)
  · exact hd

theorem sampleAt (h : s.DueLawful) (n : Fin 8) (level : Level) : ((s.setTrg n level).takeSample n level).DueLawful := by
  have hpin : s.SameDues (s.setTrg n level) := .of_entries rfl rfl rfl
  exact (h.same hpin rfl).takeSample n level

theorem tripReads (h : s.DueLawful) (i : TripInput) (read : InputState) : (s.tripReads i read).DueLawful :=
  .ite (of_within ((h.settle.setTripPin i _).changeSource i _)) h

/-! ### Executions (R146) -/

/-- The answer of an owner finds the dispatch of the tick event over, and leaves no item more than 255 ticks late (R2, R67). -/
theorem served (h : s.DueLawful) (c : Instr) {r : State × Answer} (hr : serve c s.settle = some r) : r.1.DueWithin 255 :=
  serve_due hr h.settle (Nat.le_refl _)

/-- The end of an execution takes a request, or leaves the due list and the dispatch alone (R146). -/
theorem endExecution_or (h : s.DueLawful) :
    s.endExecution.DueWithin 255 ∨ (s.SameDues s.endExecution ∧ s.endExecution.dispatch = s.dispatch) := by
  have hbuffer : ∀ {t : State} (x : Buffer), t.SameDues (t.setBuffer x) := fun _ => .of_entries rfl rfl rfl
  unfold State.endExecution
  split
  · next c _ =>
    dsimp only [State.serveSettled]
    cases hr : serve c s.settle with
    | none => exact .inr ⟨hbuffer _, rfl⟩
    | some r => exact .inl ((h.served c hr).same (hbuffer _))
  · exact .inr ⟨hbuffer _, rfl⟩
  · exact .inr ⟨.refl s, rfl⟩
  · exact .inr ⟨.refl s, rfl⟩

theorem endExecution (h : s.DueLawful) : s.endExecution.DueLawful :=
  h.endExecution_or.elim of_within fun k => h.same k.1 k.2

theorem request (h : s.DueLawful) {c : Instr} {own : State → State × Answer} (hc : ∀ s, serve c s = some (own s)) :
    (s.request c own).DueLawful := by
  have htake : (s.takeRequest c own).DueLawful :=
    State.DueLawful.same (s := (own s.settle).1) (of_within (h.served c (hc _))) (.of_entries rfl rfl rfl) rfl
  have hwhole : (s.wholeRequest c own).DueLawful :=
    State.DueLawful.same (s := (own s.endExecution.settle).1) (of_within (h.endExecution.served c (hc _)))
      (.of_entries rfl rfl rfl) rfl
  exact .ite h (.ite htake hwhole)

/-- Every command answers a next state that keeps the law of the due list. -/
theorem command (h : s.DueLawful) (c : Instr) : ∃ t, exec c s = .next t ∧ t.DueLawful := by
  have hpins : ∀ p, (s.setPins p).DueLawful := fun p =>
    State.DueLawful.same h (t := s.setPins p) (.of_entries rfl rfl rfl) rfl
  have hlink : ∀ {t : State} l, t.DueLawful → (t.setLink l).DueLawful := fun {t} l ht =>
    State.DueLawful.same ht (t := t.setLink l) (.of_entries rfl rfl rfl) rfl
  rcases hr : isRequest c with _ | _
  · cases c
    case powerOn => exact ⟨_, rfl, blocksReset _ _ _⟩
    case resetNAssert => exact ⟨_, rfl, blocksReset _ _ _⟩
    case resetNRelease => exact ⟨_, rfl, .ite (blocksReset _ _ _) h⟩
    case tickEvent levels order => exact ⟨_, rfl, .ite h (h.tick levels order)⟩
    case overrun => exact ⟨_, rfl, .ite h (.ite h.overrun h)⟩
    case action => exact ⟨_, rfl, .ite h h.action⟩
    case strobePulseEnd k => exact ⟨_, rfl, .ite h (.ite (h.takeUnit (.countdown k)) h)⟩
    case triggerSample n level => exact ⟨_, rfl, .ite h (.ite (h.sampleAt n level) h)⟩
    case qualifiedEdge n =>
      refine ⟨_, rfl, .ite h ?_⟩
      dsimp only
      split
      · exact .ite (h.sampleAt n _) h
      · exact h
    case tripInputActive i => exact ⟨_, rfl, .ite h (h.tripReads i _)⟩
    case tripInputInactive i => exact ⟨_, rfl, .ite h (h.tripReads i _)⟩
    case tripFilterSample i level =>
      exact ⟨_, rfl, .ite h (of_within ((h.settle.setTripPin i level).changeSource i _))⟩
    case csNFall => exact ⟨_, rfl, .ite (hpins _) (.ite (hlink _ (hpins _)) (hpins _))⟩
    case csNRise => exact ⟨_, rfl, .ite (hpins _) (hlink _ (hpins _))⟩
    case byteReceived => exact ⟨_, rfl, .ite h (hlink _ h)⟩
    case executionEnd => exact ⟨_, rfl, .ite h h.endExecution⟩
    all_goals exact Bool.noConfusion hr
  · obtain ⟨own, hs, he⟩ := exec_of_isRequest hr
    exact ⟨_, he s, h.request hs⟩

end State.DueLawful

/-! ### The CLK edge -/

namespace State.DueBut

variable {s : State}

theorem clkTimebase (h : s.DueWithin 255) {order : List TickUnit} (ho : .dispatch ∈ order) :
    (s.clkTimebase order).DueWithin 255 := by
  unfold State.clkTimebase
  split
  · exact (State.DueLawful.of_within h).tick_within _ ho
  · exact h.same (.of_entries rfl rfl rfl)

theorem clkTrips (h : s.DueWithin 255) (restarted : List TripInput) : (s.clkTrips restarted).DueWithin 255 := by
  unfold State.clkTrips
  dsimp only
  generalize s.sourceAtEdge restarted .a = a, s.sourceAtEdge restarted .b = b
  have hu : ((s.setTrip .a a).setTrip .b b).DueWithin 255 := h.same (.of_entries rfl rfl rfl)
  have hsoft : ∀ r, (((s.setTrip .a a).setTrip .b b).setSoft r).DueWithin 255 := fun r => hu.same (.of_entries rfl rfl rfl)
  have hbuffer : ∀ {t : State} (x : Buffer), t.DueWithin 255 → (t.setBuffer x).DueWithin 255 := fun x ht =>
    ht.same (.of_entries rfl rfl rfl)
  split
  · exact hu.takeTrips _
  · exact hbuffer _ ((hsoft _).takeTrips _)

theorem clkExecution (h : s.DueWithin 255) : s.clkExecution.DueWithin 255 := by
  unfold State.clkExecution
  split
  · split
    · exact (State.DueLawful.of_within h).endExecution_or.elim id fun k => h.same k.1
    · exact h.same (.of_entries rfl rfl rfl)
  · exact h
  · exact h

theorem clkUnit (h : s.DueWithin 255) {order : List TickUnit} (ho : .dispatch ∈ order) (restarted : List TripInput)
    (u : Config.EdgeUnit) : (s.clkUnit order restarted u).DueWithin 255 := by
  cases u with
  | timebase => exact h.clkTimebase ho
  | tripSamples => exact h.clkTrips restarted
  | execution =>
    change (if s.tripEndsHere.isSome then s.clkTrips restarted else s.clkExecution).DueWithin 255
    split
    · exact h.clkTrips restarted
    · exact h.clkExecution

/-- The parts of a CLK edge leave no item more than 255 ticks late, since a tick event that ends on it is taken whole (R2). -/
theorem clkPartsIn (h : s.DueWithin 255) (order : List Config.EdgeUnit) {tickOrder : List TickUnit}
    (ho : .dispatch ∈ tickOrder) : (s.clkPartsIn order tickOrder).DueWithin 255 := by
  have hw := List.foldlRecOn (motive := fun w : EdgeWork => w.state.DueWithin 255) order (EdgeWork.take tickOrder)
    (b := { state := s, overtaken := [], restarted := [] }) h fun w hw u _ => by
      unfold EdgeWork.take
      split
      · exact hw
      · exact hw.clkUnit ho w.restarted u
  unfold State.clkPartsIn State.beginsWithDivider
  split
  · exact hw.same (.of_entries rfl rfl rfl)
  · exact hw

end State.DueBut

/-- A CLK edge keeps the law of the due list, in every order of its parts (log entry 4). -/
theorem State.DueLawful.clkEdge {s : State} (h : s.DueLawful) : s.clkEdge.DueLawful := by
  have hdispatch : TickUnit.dispatch ∈ orderedBy (Config.tickOrder s.settle.clkEdges) tickUnits :=
    (orderedBy_perm _ _ (by decide)).mem_iff.mpr (by decide)
  have hp : s.settle.clkParts.DueWithin 255 := by
    unfold State.clkParts
    exact h.settle.clkPartsIn _ hdispatch
  have hcount : s.settle.clkParts.SameDues { s.settle.clkParts with clkEdges := s.settle.clkParts.clkEdges + 1 } :=
    .of_entries rfl rfl rfl
  exact .ite h (.of_within (hp.same hcount))

/-- Settles O58: a step is a command or a CLK edge, and each event on the way closes the item it opens. -/
theorem everyStepKeepsTheDueLaw : Obligations.EveryStepKeepsTheDueLaw := by
  unfold Obligations.EveryStepKeepsTheDueLaw
  intro s t h _ hst
  unfold step at hst
  split at hst
  · next c rest _ =>
    have hq : s.SameDues (s.withPending rest) := .of_entries rfl rfl rfl
    obtain ⟨u, hu, hl⟩ := (State.DueLawful.same h hq rfl).command c
    rwa [← Host.Outcome.next.inj (hu.symm.trans hst)]
  · rw [← Host.Outcome.next.inj hst]
    exact h.clkEdge

end Sys2Proof.Machine
end

section
/-! SUPPORT. OVERRUN (R71): the retirement that takes the overdue head away, with the chain behind it. -/

namespace Sys2Proof.Machine

/-! ### A retirement takes its own item out (R28, R69) -/

theorem State.removeDue_removeDue (s : State) (e : Fin 64) : (s.removeDue e).removeDue e = s.removeDue e := by
  unfold State.removeDue State.setDue
  dsimp only
  rw [List.filter_filter]
  simp only [Bool.and_self]

theorem State.clearSuccessor_removeDue (s : State) (p e x : Fin 64) :
    (s.removeDue x).clearSuccessor p e = (s.clearSuccessor p e).removeDue x := by
  have he : (s.removeDue x).entry p = s.entry p := rfl
  unfold State.clearSuccessor
  rw [he]
  split <;> rfl

theorem State.unlinkPredecessor_removeDue (s : State) (e x : Fin 64) :
    (s.removeDue x).unlinkPredecessor e = (s.unlinkPredecessor e).removeDue x := by
  have he : (s.removeDue x).entry e = s.entry e := rfl
  unfold State.unlinkPredecessor
  rw [he]
  split
  · exact s.clearSuccessor_removeDue _ _ _
  · rfl

/-- An item already taken out makes no difference to the retirement of its entry. -/
theorem State.retireOne_removeDue {s : State} {e : Fin 64} (h : (s.entry e).scheduled = true) (oc : EntryOutcome)
    (taker : Option (Fin 64)) : (s.removeDue e).retireOne e oc taker = s.retireOne e oc taker := by
  have hwrite : ∀ (u : State) (r : Entry), (u.removeDue e).setEntry e r = (u.setEntry e r).removeDue e := fun _ _ => rfl
  have hs : ((s.removeDue e).entry e).scheduled = true := h
  unfold State.retireOne
  rw [if_pos h, if_pos hs, s.unlinkPredecessor_removeDue, hwrite, State.removeDue_removeDue]
  rfl

theorem State.retireBroken_removeDue {s : State} {e : Fin 64} (h : (s.entry e).scheduled = true) (oc : EntryOutcome) :
    (s.removeDue e).retireBroken e oc = s.retireBroken e oc := by
  rw [State.retireBroken_of_scheduled oc h, State.retireBroken_of_scheduled (s := s.removeDue e) oc h,
    State.retireOne_removeDue h]

/-! ### The handing -/

/-- OVERRUN in a dispatch is one handing of the overrun step (R71). -/
theorem State.exec_overrun {s : State} (hr : s.inReset = false) :
    exec .overrun s = .next (if s.dispatch.isSome then s.overrunOne else s) :=
  congrArg Host.Outcome.next (State.whenRunning_of_running hr _)

/-- Settles O9: the handing is a retirement of the head that breaks the chain behind it. -/
theorem overrunRetiresTheHead : Obligations.OverrunRetiresTheHead := by
  unfold Obligations.OverrunRetiresTheHead
  intro s i hr hd hi hlate hsch
  have hone : s.overrunOne = s.retireBroken i.entry .overrun := by
    rw [State.overrunOne, State.overdueHead_eq_some_iff.mpr ⟨hi, hlate⟩]
    exact State.retireBroken_removeDue hsch _
  have hexec : exec .overrun s = .next (s.retireBroken i.entry .overrun) := by
    rw [State.exec_overrun hr, if_pos (Option.isSome_iff_ne_none.mpr hd), hone]
  have hframe := s.retireBroken_frame i.entry .overrun
  obtain ⟨hretired, hreleased⟩ := State.retireBroken_retired .overrun hsch
  exact ⟨_, hexec, hretired, hreleased, State.retireBroken_laneGoesIdle _ hsch, State.retireBroken_chainBroken _ hsch,
    hframe.dispatch, s.retireBroken_strobes i.entry _, hframe.filters, hframe.outside⟩

end Sys2Proof.Machine
end

section
/-! SUPPORT. Events whose cause does not hold (log entry 5): what each of the model's guards comes to. -/

namespace Sys2Proof.Machine

variable {s : State}

/-! ### The dispatch (R71, R72, R73) -/

/-- ACTION is one handing of the action step (R72). -/
theorem State.exec_action_of_running (hr : s.inReset = false) : exec .action s = .next s.actionOne :=
  congrArg Host.Outcome.next (State.whenRunning_of_running hr _)

theorem State.actionOne_of_no_dispatch (h : s.dispatch = none) : s.actionOne = s := by
  rw [State.actionOne, h]

/-- With no item to hand over the action step changes nothing (R72). -/
theorem State.actionOne_of_no_item (h : s.nextItem = none) : s.actionOne = s := by
  unfold State.actionOne
  split
  · next hi => cases h.symm.trans hi
  · rfl

/-- No item is handed over while the head is overdue, or once four actions are handed (R70, R73). -/
theorem State.nextItem_of_stopped {d : DispatchWork} (hd : s.dispatch = some d)
    (h : 4 ≤ d.handed.length ∨ s.overdueHead ≠ none) : s.nextItem = none := by
  simp only [State.nextItem, hd]
  refine if_neg fun c => ?_
  rcases h with h | h
  · exact absurd c.1 (Nat.not_lt.mpr h)
  · exact h c.2

/-- No item is handed over where the first one not passed over lies ahead of `now`, or there is none (R72). -/
theorem State.nextItem_of_ahead {d : DispatchWork} (hd : s.dispatch = some d)
    (h : ∀ i ∈ (s.due.filter fun j => !d.passed.contains j.entry).head?, 0 < signedDiff i.due s.now) : s.nextItem = none := by
  simp only [State.nextItem, hd]
  split
  · rw [DispatchWork.examined, ← List.head?_filter, Option.filter_eq_none_iff]
    intro i hi c
    have hbefore := (atOrBefore_iff i.due s.now).mp (Bool.and_eq_true_iff.mp c).1
    have := h i hi
    omega
  · rfl

/-! ### Samples (R83) -/

/-- Table 5-2: a change that `edge` does not select. -/
theorem EdgeSelect.qualifies_eq_false {edge : EdgeSelect} {a : Level}
    (h : edge = .none ∨ (edge = .rising ∧ a = .high) ∨ (edge = .falling ∧ a = .low)) :
    edge.qualifies (otherLevel a) = false := by
  rcases h with rfl | ⟨rfl, rfl⟩ | ⟨rfl, rfl⟩ <;> rfl

/-- No sample is an edge where it comes before the K-th, or makes a change that `edge` does not select (R82, R83). -/
theorem TriggerLine.no_edge {l : TriggerLine}
    (h : l.accepted = none ∨ l.runLength + 1 < l.depth ∨ l.edge = .none ∨ (l.edge = .rising ∧ l.accepted = some .high) ∨
      (l.edge = .falling ∧ l.accepted = some .low)) {a : Level} (ha : l.accepted = some a) :
    ¬ (l.sampleDue = true ∧ l.atLastDiffering = true ∧ l.edge.qualifies (otherLevel a) = true) := by
  rintro ⟨-, hlast, hqual⟩
  simp only [ha, reduceCtorEq, Option.some.injEq, false_or] at h
  rcases h with hfew | hedge
  · exact absurd (of_decide_eq_true hlast) (Nat.not_le.mpr hfew)
  · exact Bool.noConfusion ((EdgeSelect.qualifies_eq_false hedge).symm.trans hqual)

/-- Without its cause a QUALIFIED_EDGE changes nothing (R82, R83). -/
theorem State.exec_qualifiedEdge_of_no_cause (hr : s.inReset = false) {n : Fin 8}
    (h : ∀ a, (s.line n).accepted = some a → ¬ ((s.line n).sampleDue = true ∧ (s.line n).atLastDiffering = true ∧
      (s.line n).edge.qualifies (otherLevel a) = true)) : exec (.qualifiedEdge n) s = .next s := by
  refine congrArg Host.Outcome.next ((State.whenRunning_of_running hr _).trans ?_)
  split
  · next a ha => exact if_neg (h a ha)
  · rfl

/-! ### The link (R139, R143) -/

theorem Link.receive_of_no_transaction {l : Link} (h : l.transaction = .closed ∨ l.transaction = .waitHigh) (byte : Byte) :
    l.receive byte = l := by
  unfold Link.receive
  rcases h with h | h <;> rw [h]

theorem Link.rise_of_closed {l : Link} (h : l.transaction = .closed) : l.rise = l := by
  unfold Link.rise
  rw [h]

/-- Settles O5: each command is a guard on its cause, and the guard fails. -/
theorem eventsWithoutCauseChangeNothing : Obligations.EventsWithoutCauseChangeNothing := by
  unfold Obligations.EventsWithoutCauseChangeNothing
  intro s n v k byte i hr l
  have hrun : ∀ f : State → State, f s = s →
      (.next (s.whenRunning f) : Host.Outcome State Fault Refusal) = .next s :=
    fun f hf => congrArg Host.Outcome.next ((State.whenRunning_of_running hr f).trans hf)
  have hoverrun : s.overrunOne = s → exec .overrun s = .next s := fun h => by
    rw [State.exec_overrun hr, h, ite_self]
  have haction : s.actionOne = s → exec .action s = .next s := fun h => by
    rw [State.exec_action_of_running hr, h]
  refine ⟨fun hd => ⟨?_, haction (State.actionOne_of_no_dispatch hd)⟩, fun hhead => hoverrun ?_,
    fun ⟨j, hj, hlate⟩ => haction ?_, fun d hd hfour => haction ?_, fun d hd hahead => haction ?_, fun hdue => ⟨?_, ?_⟩,
    fun hcause => ?_, fun hcause => hrun _ (if_neg ?_), fun hen => ?_, fun hb => ?_, fun ht => ?_, fun ht => ?_,
    fun ht => ?_, ?_⟩
  · rw [State.exec_overrun hr, hd]
    rfl
  · exact State.overrunOne_of_none (State.overdueHead_eq_none_iff.mpr hhead)
  · rcases hd : s.dispatch with _ | d
    · exact State.actionOne_of_no_dispatch hd
    · refine State.actionOne_of_no_item (State.nextItem_of_stopped hd (.inr ?_))
      rw [State.overdueHead_eq_some_iff.mpr ⟨hj, hlate⟩]
      exact Option.some_ne_none j
  · exact State.actionOne_of_no_item (State.nextItem_of_stopped hd (.inl hfour))
  · exact State.actionOne_of_no_item (State.nextItem_of_ahead hd hahead)
  · exact hrun _ (if_neg (Bool.eq_false_iff.mp hdue))
  · exact State.exec_qualifiedEdge_of_no_cause hr fun a _ c => Bool.eq_false_iff.mp hdue c.1
  · exact State.exec_qualifiedEdge_of_no_cause hr fun a ha => TriggerLine.no_edge hcause ha
  · rintro ⟨hdue, hone⟩
    exact hcause.elim (fun c => Bool.noConfusion (c.symm.trans hdue)) fun c => c hone
  · have hdisabled := Bool.eq_false_iff.mp hen
    exact ⟨hrun _ (if_neg hdisabled), hrun _ (if_neg hdisabled)⟩
  · exact hrun _ (State.endExecution_of_not_executing hb)
  · exact hrun _ (congrArg s.setLink (Link.receive_of_no_transaction ht byte))
  · exact congrArg Host.Outcome.next
      ((State.whenRunning_of_running (s := s.setPins { s.pins with csN := .low }) hr _).trans (if_neg ht))
  · exact congrArg Host.Outcome.next
      ((State.whenRunning_of_running (s := s.setPins { s.pins with csN := .high }) hr _).trans
        (congrArg (s.setPins { s.pins with csN := .high }).setLink (Link.rise_of_closed ht)))
  · exact congrArg Host.Outcome.next (if_neg (Bool.eq_false_iff.mp hr))

end Sys2Proof.Machine
end

section
/-! SUPPORT. TICK_EVENT as its parts (R2, R70, R81, R110; log entry 3): what it owes when it begins, what each part is, and a
tick event that finds nothing to do but its countdowns. -/

namespace Sys2Proof.Machine

variable {s : State}

/-- TICK_EVENT is a tick with its parts in the order given (R1, R2). -/
theorem State.exec_tickEvent (hr : s.inReset = false) (levels : BitVec 8) (order : List TickUnit) :
    exec (.tickEvent levels order) s = .next (s.tick levels order) :=
  congrArg Host.Outcome.next (State.whenRunning_of_running hr _)

/-! ### The beginning of a tick (R70, R81, R110) -/

theorem State.oweCountdowns_line (s : State) (n : Fin 8) : s.oweCountdowns.line n = s.line n := by
  obtain ⟨ks, h⟩ := s.oweCountdowns_eq
  rw [h]
  rfl

theorem State.countLines_strobe (s : State) (k : Fin 4) : s.countLines.strobe k = s.strobe k := by
  obtain ⟨ls, h⟩ := s.countLines_eq
  rw [h]
  rfl

theorem State.beginTick_line (s : State) (levels : BitVec 8) (n : Fin 8) :
    (s.beginTick levels).line n = (s.line n).count := by
  rw [State.beginTick, State.oweCountdowns_line, State.countLines_line]
  rfl

theorem State.beginTick_strobe (s : State) (levels : BitVec 8) (k : Fin 4) :
    (s.beginTick levels).strobe k = { s.strobe k with countdownDue := decide (0 < (s.strobe k).remaining) } := by
  rw [State.beginTick, State.oweCountdowns_strobe, State.countLines_strobe]
  rfl

/-- Settles O7: on a steady part the tick event is its beginning. -/
theorem tickEventBeginsItsParts : Obligations.TickEventBeginsItsParts := by
  unfold Obligations.TickEventBeginsItsParts
  intro s levels hsteady
  obtain ⟨hr, hwhole, -⟩ := hsteady
  have htick : s.tick levels [] = s.beginTick levels := by
    rw [State.tick, State.settle_of_tickWhole hwhole, State.takeUnits, List.foldl_nil]
  obtain ⟨ls, ks, hb⟩ := s.beginTick_eq levels
  have hsame : (s.beginTick levels).dispatch = some { handed := [], passed := [] } ∧
      (s.beginTick levels).entries = s.entries ∧ (s.beginTick levels).due = s.due ∧
      (s.beginTick levels).lanes = s.lanes := by
    rw [hb]
    exact ⟨rfl, rfl, rfl, rfl⟩
  obtain ⟨hdispatch, hrest⟩ := hsame
  refine ⟨s.beginTick levels, by rw [State.exec_tickEvent hr, htick], hdispatch, fun n => ?_,
    s.beginTick_strobe levels, hrest⟩
  rw [s.beginTick_line, TriggerLine.count]
  split
  · next h => rw [if_neg (Nat.not_lt.mpr h)]
  · next h => rw [if_pos (Nat.lt_of_not_le h)]

/-! ### The dispatch as OVERRUNs and ACTIONs (R70 to R73) -/

/-- No event of a run takes the part into reset. -/
theorem State.RunFrame.inReset {t : State} (h : s.RunFrame t) : t.inReset = s.inReset := by
  rw [State.inReset, State.inReset, h.outside.2.2.1]

/-- Commands taken after others are taken on the state that those leave. -/
theorem execAll_append {a : List Instr} {s t : State} (b : List Instr) (h : execAll a s = .next t) :
    execAll (a ++ b) s = execAll b t := by
  induction a generalizing s with
  | nil => cases h; rfl
  | cons c a ih =>
    rw [List.cons_append]
    rcases hu : exec c s with u | f | r <;> simp only [execAll, hu] at h ⊢
    · exact ih h
    · cases h
    · cases h

/-- OVERRUNs in a dispatch are its overrun step (R71). -/
theorem execAll_overruns (m : Nat) {s : State} (hr : s.inReset = false) (hd : s.dispatch.isSome = true) :
    execAll (List.replicate m .overrun) s = .next (s.overrunStep m) := by
  induction m generalizing s with
  | zero => rfl
  | succ m ih =>
    have hf := s.overrunOne_frame
    rw [List.replicate_succ, execAll, State.exec_overrun hr, if_pos hd]
    exact ih (hf.inReset.trans hr) (hf.dispatch ▸ hd)

/-- OVERRUNs without a dispatch are none (R71). -/
theorem execAll_overruns_of_no_dispatch (m : Nat) (hr : s.inReset = false) (hd : s.dispatch = none) :
    execAll (List.replicate m .overrun) s = .next s := by
  induction m with
  | zero => rfl
  | succ m ih =>
    rw [List.replicate_succ, execAll, State.exec_overrun hr, hd]
    exact ih

/-- ACTIONs are the action step (R72). -/
theorem execAll_actions (k : Nat) {s : State} (hr : s.inReset = false) :
    execAll (List.replicate k .action) s = .next (s.actionStep k) := by
  induction k generalizing s with
  | zero => rfl
  | succ k ih =>
    have hf : s.actionOne.inReset = s.inReset := s.actionOne_frame.inReset
    rw [List.replicate_succ, execAll, State.exec_action_of_running hr]
    exact ih (hf.trans hr)

theorem State.actionStep_of_no_dispatch (k : Nat) (hd : s.dispatch = none) : s.actionStep k = s := by
  induction k with
  | zero => rfl
  | succ k ih => rw [State.actionStep, State.actionOne_of_no_dispatch hd, ih]

theorem State.overrunStep_add (a b : Nat) (s : State) : s.overrunStep (a + b) = (s.overrunStep a).overrunStep b := by
  induction a generalizing s with
  | zero => rw [Nat.zero_add, State.overrunStep]
  | succ a ih => rw [Nat.succ_add, State.overrunStep, ih, State.overrunStep]

/-- The overrun step is over when it has had as many handings as the list has items (R71). -/
theorem State.overrunStep_of_length_le {m : Nat} (h : s.due.length ≤ m) : s.overrunStep m = s.overrunStep s.due.length := by
  obtain ⟨k, rfl⟩ := Nat.exists_eq_add_of_le h
  rw [State.overrunStep_add, State.overrunStep_of_none (State.overrunStep_overdueHead (Nat.le_refl _))]

theorem State.setDispatch_of_eq {d : Option DispatchWork} (h : s.dispatch = d) : s.setDispatch d = s := by
  subst h
  rfl

theorem State.finishDispatch_of_no_dispatch (h : s.dispatch = none) : s.finishDispatch = s := by
  rw [State.finishDispatch, h]
  rfl

/-- A dispatch is OVERRUNs, as many as the list has items or more, then four ACTIONs, and it is over (R70 to R73). -/
theorem State.finishDispatch_execAll (hr : s.inReset = false) {m : Nat} (hm : s.due.length ≤ m) :
    ∃ t, execAll (List.replicate m .overrun ++ List.replicate 4 .action) s = .next t ∧
      s.finishDispatch = { t with dispatch := none } := by
  rcases hd : s.dispatch with _ | d
  · refine ⟨s, ?_, ?_⟩
    · rw [execAll_append _ (execAll_overruns_of_no_dispatch m hr hd), execAll_actions 4 hr,
        State.actionStep_of_no_dispatch 4 hd]
    · exact (State.finishDispatch_of_no_dispatch hd).trans (State.setDispatch_of_eq hd).symm
  · have hsome : s.dispatch.isSome = true := by rw [hd]; rfl
    have hr' : (s.overrunStep m).inReset = false := (State.overrunStep_frame m s).inReset.trans hr
    refine ⟨(s.overrunStep m).actionStep 4, ?_, ?_⟩
    · rw [execAll_append _ (execAll_overruns m hr hsome), execAll_actions 4 hr']
    · rw [State.finishDispatch, if_pos hsome, State.overrunStep_of_length_le hm]
      rfl

/-! ### A sample as TRIGGER_SAMPLE (R81, R82) -/

/-- The bit of one pin. -/
theorem getLsbD_pinBit (n : Fin 8) (i : Nat) : (1#8 <<< n.val).getLsbD i = decide (i = n.val) := by
  have hn := n.isLt
  rw [BitVec.getLsbD_shiftLeft, BitVec.getLsbD_one]
  by_cases h : i = n.val
  · simp [h]
  · simp only [h, decide_false, Bool.and_eq_false_iff, decide_eq_false_iff_not, Bool.not_eq_false']
    by_cases hi : i < n.val
    · simp [hi]
    · simp; omega

/-- A pin that shows a level already goes on showing it. -/
theorem State.setTrg_trgLevel (s : State) (n : Fin 8) : s.setTrg n (s.trgLevel n) = s := by
  have htrg : (if s.trgLevel n = .high then s.pins.trg ||| (1#8 <<< n.val) else s.pins.trg &&& ~~~(1#8 <<< n.val)) =
      s.pins.trg := by
    refine BitVec.eq_of_getLsbD_eq fun i hi => ?_
    unfold State.trgLevel
    by_cases hb : s.pins.trg.getLsbD n.val = true
    · rw [if_pos hb, if_pos rfl, BitVec.getLsbD_or, getLsbD_pinBit]
      by_cases hin : i = n.val
      · rw [hin, hb, Bool.true_or]
      · simp [hin]
    · rw [if_neg hb, if_neg nofun, BitVec.getLsbD_and, BitVec.getLsbD_not, getLsbD_pinBit]
      by_cases hin : i = n.val
      · rw [hin, Bool.eq_false_iff.mpr hb, Bool.false_and]
      · simp [hin, hi]
  unfold State.setTrg
  rw [htrg]
  rfl
/-- The sample that a tick event takes of a line is TRIGGER_SAMPLE at the level of its pin (R82). -/
theorem State.takeSample_exec (hr : s.inReset = false) (n : Fin 8) :
    exec (.triggerSample n (s.trgLevel n)) s = .next (s.takeSample n (s.trgLevel n)) := by
  refine congrArg Host.Outcome.next ((State.whenRunning_of_running hr _).trans ?_)
  rw [s.setTrg_trgLevel]
  split
  · rfl
  · next h => rw [State.takeSample, if_neg h]

/-! ### A tick event with nothing to do but its countdowns (R70, R83, R110) -/

/-- A dispatch on an empty list changes nothing (R70). -/
theorem State.finishDispatch_of_empty (h : s.due = []) : s.finishDispatch = s.setDispatch none := by
  rcases hd : s.dispatch with _ | d
  · exact (State.finishDispatch_of_no_dispatch hd).trans (State.setDispatch_of_eq hd).symm
  · have hover : s.overdueHead = none := State.overdueHead_eq_none_iff.mpr (by simp [h])
    have hitem : s.nextItem = none := State.nextItem_of_ahead hd (by simp [h])
    have hstep : ∀ k, s.actionStep k = s := fun k => by
      induction k with
      | zero => rfl
      | succ k ih => rw [State.actionStep, State.actionOne_of_no_item hitem, ih]
    rw [State.finishDispatch, hd, State.overrunStep_of_none hover, hstep]
    rfl

/-- A sample of a line that qualifies no edge updates the filter of the line alone (R82, R83). -/
theorem State.takeSample_of_edge_none {n : Fin 8} (h : (s.line n).edge = .none) (level : Level) :
    ∃ r : TriggerLine, r.edge = .none ∧ s.takeSample n level = s.setLine n r := by
  have hq : (EdgeSelect.none.qualifies level) = false := by cases level <;> rfl
  unfold State.takeSample
  split
  · unfold State.filterSample
    dsimp only
    repeat' split
    · exact ⟨_, by rw [State.line_setLine_self]; exact h, State.setLine_setLine _ _ _ _⟩
    · exact ⟨_, by rw [State.line_setLine_self]; exact h, State.setLine_setLine _ _ _ _⟩
    · unfold State.acceptChange
      simp only [State.setLine_setLine, State.line_setLine_self, h, hq]
      exact ⟨_, rfl, rfl⟩
    · exact ⟨_, by rw [State.line_setLine_self]; exact h, State.setLine_setLine _ _ _ _⟩
  · exact ⟨s.line n, h, (s.setLine_line_self n).symm⟩

/-- `t` is what a tick event of `s` with nothing due, and no edge to qualify, has come to when some of its parts are taken: each
strobe line has been counted down, or is still to be. -/
structure State.CountsDown (s t : State) : Prop where
  entries : t.entries = s.entries
  lanes : t.lanes = s.lanes
  due : t.due = []
  edges : ∀ n : Fin 8, (t.line n).edge = .none
  strobes : ∀ k : Fin 4, t.strobe k = { s.strobe k with countdownDue := decide (0 < (s.strobe k).remaining) } ∨
    t.strobe k = { s.strobe k with remaining := (s.strobe k).remaining - 1, countdownDue := false }

namespace State.CountsDown

variable {t : State}

theorem beginTick (hd : s.due = []) (he : ∀ n : Fin 8, (s.line n).edge = .none) (levels : BitVec 8) :
    s.CountsDown (s.beginTick levels) := by
  obtain ⟨ls, ks, hb⟩ := s.beginTick_eq levels
  refine ⟨by rw [hb], by rw [hb], by rw [hb]; exact hd, fun n => ?_, fun k => .inl (s.beginTick_strobe levels k)⟩
  rw [s.beginTick_line, TriggerLine.count]
  split
  · exact he n
  · exact he n

theorem takeUnit (h : s.CountsDown t) (u : TickUnit) : s.CountsDown (t.takeUnit u) := by
  cases u with
  | dispatch =>
    rw [State.takeUnit, State.finishDispatch_of_empty h.due]
    exact ⟨h.entries, h.lanes, h.due, h.edges, h.strobes⟩
  | sample n =>
    obtain ⟨r, hr, ht⟩ := State.takeSample_of_edge_none (h.edges n) (t.trgLevel n)
    rw [State.takeUnit, ht]
    refine ⟨h.entries, h.lanes, h.due, fun m => ?_, h.strobes⟩
    rw [t.line_setLine]
    split
    · exact hr
    · exact h.edges m
  | countdown k =>
    have hstrobe : ∀ x, (t.countdown k).strobe x = _ := t.countdown_strobe k
    obtain ⟨ks, hk⟩ : ∃ ks, t.countdown k = { t with strobes := ks } := by
      unfold State.countdown
      split
      · exact ⟨_, rfl⟩
      · exact ⟨t.strobes, rfl⟩
    rw [State.takeUnit]
    rw [hk] at hstrobe ⊢
    refine ⟨h.entries, h.lanes, h.due, h.edges, fun x => ?_⟩
    rw [hstrobe]
    split
    · next c =>
      obtain ⟨rfl, hdue⟩ := c
      rcases h.strobes x with hx | hx
      · rw [hx]
        exact .inr rfl
      · rw [hx] at hdue
        cases hdue
    · exact h.strobes x

theorem takeUnits (h : s.CountsDown t) (units : List TickUnit) : s.CountsDown (t.takeUnits units) :=
  List.foldlRecOn (motive := s.CountsDown) units State.takeUnit h fun _ ht u _ => ht.takeUnit u

/-- When no countdown is owed any more, each has been taken (R110). -/
theorem counted (h : s.CountsDown t) {k : Fin 4} (hs : (s.strobe k).countdownDue = false)
    (ht : (t.strobe k).countdownDue = false) :
    t.strobe k = { s.strobe k with remaining := (s.strobe k).remaining - 1 } := by
  have hk := h.strobes k
  generalize s.strobe k = r at hs hk ⊢
  obtain ⟨width, remaining, owed⟩ := r
  obtain rfl : owed = false := hs
  rcases hk with hk | hk
  · rw [hk] at ht ⊢
    obtain rfl : remaining = 0 := Nat.eq_zero_of_not_pos (of_decide_eq_false ht)
    rfl
  · exact hk

end State.CountsDown

/-- Settles O8: a tick with one part more takes that part last, and the parts are the steps that the commands stand for; all of
them taken, nothing is owed. -/
theorem wholeTickLeavesNothingOwed : Obligations.WholeTickLeavesNothingOwed := by
  unfold Obligations.WholeTickLeavesNothingOwed
  intro s levels order m n k hr
  have hexec := State.exec_tickEvent hr levels
  have hpins := s.tick_pins levels order
  have hr' : (s.tick levels order).inReset = false := by
    rw [State.inReset, hpins]
    exact hr
  refine ⟨⟨s.tick levels order, hexec order, fun hm => ?_, ?_, ?_⟩, fun hall => ⟨s.tick levels order, hexec order, ?_⟩⟩
  · obtain ⟨t, ht, hfinish⟩ := State.finishDispatch_execAll hr' hm
    refine ⟨t, ht, ?_⟩
    rw [hexec, State.tick_append, ← hfinish]
    rfl
  · have hlevel : (if levels.getLsbD n.val then Level.high else .low) = (s.tick levels order).trgLevel n := by
      rw [State.trgLevel, hpins]
    rw [hexec, State.tick_append, hlevel, State.takeSample_exec hr']
    rfl
  · rw [hexec, State.tick_append]
    rfl
  · have hwhole : (s.tick levels order).TickWhole :=
      (State.tickWhole_iff _).mpr fun u hu => State.takeUnits_notOwed order _ u (.inl (hall u hu))
    refine ⟨hwhole, fun hs hd he => ?_⟩
    have hcounts : s.CountsDown (s.tick levels order) := by
      rw [State.tick, State.settle_of_tickWhole hs]
      exact (State.CountsDown.beginTick hd he levels).takeUnits order
    exact ⟨fun k => hcounts.counted (hs.2.2 k) (hwhole.2.2 k), hcounts.entries, hcounts.lanes, hcounts.due⟩

end Sys2Proof.Machine
end

section
/-! CERTIFICATE. TRIGGER_SAMPLE: what a sample makes of its line's filter, and when it is an edge that reaches the entries. -/

namespace Sys2Proof.Machine

/-! ### The filter after a sample (R82) -/

/-- A sample that reads `level` changes the accepted level: it is the K-th that differs (R82). -/
abbrev TriggerLine.changes (l : TriggerLine) (level : Level) : Prop :=
  l.accepted ≠ none ∧ l.accepted ≠ some level ∧ l.depth ≤ l.runLength + 1

/-- The record that a sample leaves its line, whatever the walk then makes of its list (R82). -/
def TriggerLine.sampled (l : TriggerLine) (level : Level) : TriggerLine :=
  { l with
    sampleDue := false
    accepted := if l.accepted = none ∨ l.changes level then some level else l.accepted
    runLength := if l.accepted = none ∨ l.accepted = some level ∨ l.changes level then 0 else l.runLength + 1 }

section Filter

variable {l : TriggerLine} {level : Level}

/-- The first sample is accepted as it is. -/
theorem TriggerLine.sampled_of_first (h : l.accepted = none) :
    l.sampled level = { l with sampleDue := false, accepted := some level, runLength := 0 } := by
  simp [TriggerLine.sampled, h]

/-- A sample that agrees ends the run. -/
theorem TriggerLine.sampled_of_agrees (h : l.accepted = some level) :
    l.sampled level = { l with sampleDue := false, runLength := 0 } := by
  simp [TriggerLine.sampled, h]

/-- The K-th differing sample is accepted. -/
theorem TriggerLine.sampled_of_changes (h : l.changes level) :
    l.sampled level = { l with sampleDue := false, accepted := some level, runLength := 0 } := by
  simp [TriggerLine.sampled, h]

/-- A differing sample before the K-th lengthens the run. -/
theorem TriggerLine.sampled_of_counts {a : Level} (h : l.accepted = some a) (hne : a ≠ level)
    (hfew : ¬ l.depth ≤ l.runLength + 1) :
    l.sampled level = { l with sampleDue := false, runLength := l.runLength + 1 } := by
  simp [TriggerLine.sampled, h, hne, hfew]

end Filter

/-- Table 5-2: the changes that `edge` selects (R83). -/
theorem EdgeSelect.qualifies_iff (edge : EdgeSelect) (level : Level) : edge.qualifies level = true ↔
    edge = .both ∨ (edge = .rising ∧ level = .high) ∨ (edge = .falling ∧ level = .low) := by
  cases edge <;> cases level <;> decide

/-- The pin shows the level that it is given (R84). -/
theorem State.trgLevel_setTrg (s : State) (n : Fin 8) (level : Level) : (s.setTrg n level).trgLevel n = level := by
  cases level with
  | low => simp [State.trgLevel, State.setTrg]
  | high => simp [State.trgLevel, State.setTrg]

/-! ### The sample of a line as the write of its filter (R82, R83) -/

section Due

variable {s : State} {n : Fin 8} (hdue : (s.line n).sampleDue = true)
include hdue

/-- The sample that a line owes writes the line's filter; a change that `edge` selects then takes the walk (R82, R83, R88). -/
theorem State.takeSample_of_due (level : Level) : s.takeSample n level =
    if (s.line n).changes level ∧ (s.line n).edge.qualifies level = true
    then (s.setLine n ((s.line n).sampled level)).walk n s.now
    else s.setLine n ((s.line n).sampled level) := by
  rw [State.takeSample, if_pos hdue, State.filterSample, State.line_setLine_self]
  dsimp only
  split
  · next hfirst =>
    rw [State.setLine_setLine, TriggerLine.sampled_of_first hfirst, if_neg fun ⟨⟨hset, _⟩, _⟩ => hset hfirst]
  · next a ha =>
    split
    · next hagrees =>
      subst hagrees
      rw [State.setLine_setLine, TriggerLine.sampled_of_agrees ha, if_neg fun ⟨⟨_, hdiffers, _⟩, _⟩ => hdiffers ha]
    · next hne =>
      split
      · next hlast =>
        have hchanges : (s.line n).changes level :=
          ⟨by simp [ha], fun c => hne (Option.some.inj (ha.symm.trans c)), hlast⟩
        rw [TriggerLine.sampled_of_changes hchanges, if_congr (and_iff_right hchanges) rfl rfl]
        simp only [State.acceptChange, State.setLine_setLine, State.line_setLine_self, State.setLine_now]
      · next hfew =>
        rw [State.setLine_setLine, TriggerLine.sampled_of_counts ha hne hfew,
          if_neg fun ⟨⟨_, _, hlast⟩, _⟩ => hfew hlast]

/-- After the write of its line's filter, a sample is an event of the run (R82, R88). -/
theorem State.takeSample_runFrame (level : Level) :
    (s.setLine n ((s.line n).sampled level)).RunFrame (s.takeSample n level) := by
  rw [State.takeSample_of_due hdue]
  exact .ite (State.walk_frame _ n s.now) (.refl _)

/-- A sample that makes no change which `edge` selects writes its line's filter alone (R83). -/
theorem State.takeSample_of_not_selected {level : Level}
    (h : ¬ ((s.line n).changes level ∧ (s.line n).edge.qualifies level = true)) :
    s.takeSample n level = s.setLine n ((s.line n).sampled level) := by
  rw [State.takeSample_of_due hdue, if_neg h]

/-- On a line that owes a sample, TRIGGER_SAMPLE sets the pin and takes the sample (R81, R82). -/
theorem State.exec_triggerSample_of_due (hr : s.inReset = false) (level : Level) :
    exec (.triggerSample n level) s = .next ((s.setTrg n level).takeSample n level) :=
  congrArg Host.Outcome.next ((State.whenRunning_of_running hr _).trans (if_pos hdue))

end Due

/-- Settles O18: the sample writes the filter of its line, and the walk that an edge takes after it keeps every filter. -/
theorem triggerSampleFilters : Obligations.TriggerSampleFilters := by
  unfold Obligations.TriggerSampleFilters
  intro s n v hr hdue l changes selected
  have hline : ∀ m : Fin 8, (s.setTrg n v).line m = s.line m := fun _ => rfl
  have hdue' : ((s.setTrg n v).line n).sampleDue = true := hdue
  have hrun := State.takeSample_runFrame hdue' v
  obtain ⟨htime, htrips, hpins, hlink, hpending, -⟩ := hrun.outside
  refine ⟨_, State.exec_triggerSample_of_due hdue hr v, ?_, hpins, ?_, fun m hm => ?_, fun hnot => ?_, hrun.dispatch, htime,
    htrips, hlink, hpending⟩
  · rw [hrun.filters n, State.line_setLine_self]
    rfl
  · rw [State.trgLevel, hpins]
    exact s.trgLevel_setTrg n v
  · rw [hrun.filters m, State.line_setLine_ne _ _ hm, hline]
  · have hnot' : ¬ (((s.setTrg n v).line n).changes v ∧ ((s.setTrg n v).line n).edge.qualifies v = true) :=
      fun ⟨hchanges, hedge⟩ => hnot ⟨hchanges, (EdgeSelect.qualifies_iff _ v).mp hedge⟩
    rw [State.takeSample_of_not_selected hdue' hnot']
    refine ⟨rfl, rfl, rfl, rfl, fun m => ?_⟩
    rw [State.line_setLine]
    split
    · next h => rw [h]; rfl
    · rfl

end Sys2Proof.Machine
end

section
/-! SUPPORT. The law of one lane (R98 to R101, R103, R131): each write that the part makes of a lane's record keeps it. -/

namespace Sys2Proof.Machine

theorem TrippedBy.eq_empty_of_not_any {t : TrippedBy} (h : ¬ t.any = true) : t = TrippedBy.empty :=
  by_contra fun c => h (t.any_iff.mpr c)

section Record

variable {r : Lane}

/-- An owned lane carries no source and no forced level (R99, R100). -/
theorem Lane.Lawful.owned (h : r.Lawful) (ho : r.owner ≠ none) : r.trippedBy = TrippedBy.empty ∧ r.forced = none :=
  ⟨by_contra fun c => ho (h.1 c).1, h.2.1 ho⟩

/-- The settings of a lane are not bound by the law (R104). -/
theorem Lane.Lawful.configured (h : r.Lawful) (p : Polarity) (safe : PinLevel) :
    { r with polarity := p, safeLevel := safe }.Lawful := h

/-- A level is called for on a lane that has an owner (R102). -/
theorem Lane.Lawful.called (h : r.Lawful) (ho : r.owner ≠ none) (c : Call) : { r with call := c }.Lawful := by
  obtain ⟨htripped, hforced, hheir, -⟩ := h
  exact ⟨htripped, hforced, hheir, fun hn => absurd hn ho⟩

/-- A level is forced on a lane that has no source and no owner (R105). -/
theorem Lane.Lawful.forcedTo (h : r.Lawful) (ht : r.trippedBy = TrippedBy.empty) (ho : r.owner = none)
    (f : Option Forced) : { r with forced := f }.Lawful := by
  obtain ⟨-, -, hheir, hcall⟩ := h
  exact ⟨fun c => absurd ht c, fun c => absurd ho c, hheir, hcall⟩

/-- A lane without owner, heir and forced level keeps the law whatever sources hold it (R108, R131). -/
theorem Lane.unclaimed_lawful (r : Lane) (t : TrippedBy) : { r.unclaimed with trippedBy := t }.Lawful :=
  ⟨fun _ => ⟨rfl, rfl, rfl⟩, fun _ => rfl, nofun, fun _ => rfl⟩

/-- The release of a claim: an heir that is started stands behind no other, and no owner leaves an heir behind (R103). -/
theorem Lane.Lawful.released (h : r.Lawful) (e : Fin 64) (taker : Option (Fin 64)) : (r.released e taker).Lawful := by
  have ⟨htripped, hforced, hheir, hcall⟩ := h
  unfold Lane.released
  split
  · next ho =>
    obtain ⟨ht, hf⟩ := h.owned (by simp [ho])
    split
    · exact ⟨fun c => absurd ht c, fun _ => hf, nofun, fun _ => rfl⟩
    · exact ⟨fun c => absurd ht c, nofun, nofun, fun _ => rfl⟩
  · split
    · exact ⟨fun c => ⟨(htripped c).1, rfl, (htripped c).2.2⟩, hforced, nofun, hcall⟩
    · exact h

/-- A start behind the lane's owner names that owner (R117). -/
theorem Lane.ownedByPredecessor_iff (r : Lane) (start : Start) :
    r.ownedByPredecessor start = true ↔ ∃ p, start = .after p ∧ r.owner = some p := by
  cases start <;> simp [Lane.ownedByPredecessor]

/-- A claim that is taken: an heir behind its predecessor, another entry, or an owner of a lane with no source, no claim and no
forced level (R101, R117). -/
theorem Lane.Lawful.claim (h : r.Lawful) {e : Fin 64} {start : Start} (hs : start ≠ .after e) {r' : Lane}
    (hr : r.claim e start = .ok r') : r'.Lawful := by
  obtain ⟨-, hforced, -, hcall⟩ := h
  unfold Lane.claim at hr
  split at hr
  · cases hr
  · next ht =>
    have ht := TrippedBy.eq_empty_of_not_any ht
    split at hr
    · cases hr
    · next hh =>
      split at hr
      · next hp =>
        obtain ⟨p, rfl, ho⟩ := (r.ownedByPredecessor_iff start).mp hp
        cases hr
        refine ⟨fun c => absurd ht c, hforced, fun _ => ⟨by simp [ho], fun c => hs ?_⟩, hcall⟩
        exact congrArg Start.after (Option.some.inj (c.trans ho)).symm
      · split at hr
        · cases hr
        · split at hr
          · cases hr
          · next hf =>
            cases hr
            exact ⟨fun c => absurd ht c, fun _ => not_not.mp hf, fun c => absurd (not_not.mp hh) c, nofun⟩

/-- A trip takes the claims of a lane that no source holds, and finds none on another (R131). -/
theorem Lane.Lawful.tripped (h : r.Lawful) (src : TripId) : (r.tripped src).Lawful := by
  rw [Lane.tripped_eq]
  split
  · exact r.unclaimed_lawful _
  · next ht =>
    obtain ⟨htripped, hforced, hheir, hcall⟩ := h
    exact ⟨fun _ => htripped ht, hforced, hheir, hcall⟩

/-- No source joins a set by a removal (R136). -/
theorem TrippedBy.remove_ne_empty {t : TrippedBy} {src : TripId} (h : t.remove src ≠ TrippedBy.empty) :
    t ≠ TrippedBy.empty := by
  rintro rfl
  cases src <;> exact h rfl

/-- A source that leaves a lane leaves it without claims (R136). -/
theorem Lane.Lawful.untripped (h : r.Lawful) (src : TripId) :
    { r with trippedBy := r.trippedBy.remove src }.Lawful := by
  obtain ⟨htripped, hforced, hheir, hcall⟩ := h
  exact ⟨fun c => htripped (TrippedBy.remove_ne_empty c), hforced, hheir, hcall⟩

end Record

end Sys2Proof.Machine
end

section
/-! SUPPORT. Retirements, the running of entries, the walk, the tick event and the trips keep the law of lanes: they release
claims (R103), write the level that an owner calls for (R102), and take the claims of the lanes they trip (R131). -/

namespace Sys2Proof.Machine

/-- The law of lanes reads the lanes alone. -/
theorem State.lanesLawful_congr {s t : State} (h : t.lanes = s.lanes) : t.LanesLawful ↔ s.LanesLawful := by
  simp only [State.LanesLawful, State.lane, h]

namespace State.LanesLawful

variable {s : State}

/-! ### The writes of other records, and of a lane -/

theorem congr (h : s.LanesLawful) {t : State} (ht : t.lanes = s.lanes) : t.LanesLawful :=
  (State.lanesLawful_congr ht).mpr h

theorem ite {c : Prop} [Decidable c] {t : State} (hs : s.LanesLawful) (ht : t.LanesLawful) :
    (if c then s else t).LanesLawful := by
  split
  · exact hs
  · exact ht

theorem setEntry (h : s.LanesLawful) (e : Fin 64) (r : Entry) : (s.setEntry e r).LanesLawful := h

theorem setLine (h : s.LanesLawful) (n : Fin 8) (r : TriggerLine) : (s.setLine n r).LanesLawful := h

theorem removeDue (h : s.LanesLawful) (e : Fin 64) : (s.removeDue e).LanesLawful := h

theorem setDispatch (h : s.LanesLawful) (d : Option DispatchWork) : (s.setDispatch d).LanesLawful := h

theorem setTrip (h : s.LanesLawful) (i : TripInput) (r : TripSource) : (s.setTrip i r).LanesLawful :=
  h.congr (s.setTrip_lanes i r)

theorem setSoft (h : s.LanesLawful) (r : SoftSource) : (s.setSoft r).LanesLawful := h

theorem setTrg (h : s.LanesLawful) (n : Fin 8) (level : Level) : (s.setTrg n level).LanesLawful := h

theorem setTripPin (h : s.LanesLawful) (i : TripInput) (level : Level) : (s.setTripPin i level).LanesLawful := by
  cases i <;> exact h

theorem setLane (h : s.LanesLawful) (l : Fin 16) {r : Lane} (hr : r.Lawful) : (s.setLane l r).LanesLawful := fun x => by
  rw [s.lane_setLane]
  split
  · exact hr
  · exact h x

theorem handLevel (h : s.LanesLawful) (e : Fin 64) (c : Call) : (s.handLevel e c).LanesLawful := fun x => by
  rw [s.handLevel_lane]
  split
  · next ho => exact (h x).called (by simp [ho.2]) c
  · exact h x

/-! ### Retirement (R28, R103, R122) -/

theorem unlink (h : s.LanesLawful) (p y : Fin 64) : (s.unlink p y).LanesLawful := fun x => by
  rw [s.unlink_lane]
  exact h x

theorem retireOne (h : s.LanesLawful) (e : Fin 64) (oc : EntryOutcome) (taker : Option (Fin 64)) :
    (s.retireOne e oc taker).LanesLawful := by
  by_cases hs : (s.entry e).scheduled = true
  · intro x
    rw [s.retireOne_lane oc taker hs]
    split
    · exact (h x).released e taker
    · exact h x
  · rwa [s.retireOne_of_not_scheduled oc taker (by simpa using hs)]

theorem breakFrom (k : Nat) {s : State} (h : s.LanesLawful) (y : Option (Fin 64)) : (s.breakFrom k y).LanesLawful := by
  induction k generalizing s y with
  | zero => exact h
  | succ k ih =>
    rcases y with _ | y
    · exact h
    · unfold State.breakFrom
      split
      · exact ih ((h.retireOne _ _ _).unlink _ _) _
      · exact h.retireOne _ _ _

theorem breakBehind (h : s.LanesLawful) (e : Fin 64) : (s.breakBehind e).LanesLawful := by
  unfold State.breakBehind
  split
  · exact (h.unlink _ _).breakFrom _ _
  · exact h

theorem retireBroken (h : s.LanesLawful) (e : Fin 64) (oc : EntryOutcome) : (s.retireBroken e oc).LanesLawful :=
  .ite ((h.retireOne _ _ _).breakBehind _) h

/-! ### Running (chapter 3) -/

theorem insertItem (h : s.LanesLawful) (e : Fin 64) : (s.insertItem e).LanesLawful :=
  .ite ((h.removeDue e).retireBroken _ _) h

theorem serveStrobe (h : s.LanesLawful) (e : Fin 64) (served : Bool) : (s.serveStrobe e served).LanesLawful := by
  obtain ⟨es, ks, hs⟩ := s.serveStrobe_eq e served
  exact h.congr (by rw [hs])

theorem follow (h : s.LanesLawful) (e : Fin 64) (served : Bool) : (s.follow e served).LanesLawful :=
  ((h.handLevel _ _).serveStrobe _ _).insertItem _

/-- The entry's record written, and what follows it: the shape of every start and action (R43, R49). -/
theorem setEntry_follow (h : s.LanesLawful) (e : Fin 64) (r : Entry) (served : Bool) :
    ((s.setEntry e r).follow e served).LanesLawful := (h.setEntry e r).follow e served

theorem startInEvent (h : s.LanesLawful) (e : Fin 64) (start : Instant) (unserved : Bool) :
    (s.startInEvent e start unserved).LanesLawful := h.setEntry_follow _ _ _

theorem startSuccessor (h : s.LanesLawful) (p y : Fin 64) (start : Instant) :
    (s.startSuccessor p y start).LanesLawful := .ite ((h.unlink p y).startInEvent _ _ _) (h.unlink p y)

theorem retireWell (h : s.LanesLawful) (e : Fin 64) (oc : EntryOutcome) (start : Instant) :
    (s.retireWell e oc start).LanesLawful := by
  unfold State.retireWell
  split
  · exact (h.retireOne _ _ _).startSuccessor _ _ _
  · exact h.retireOne _ _ _

theorem afterRun (h : s.LanesLawful) (e : Fin 64) (t : Instant) (served : Bool) : (s.afterRun e t served).LanesLawful := by
  unfold State.afterRun
  refine .ite (h.retireWell _ _ _) ?_
  split
  · exact (h.setEntry _ _).handLevel _ _
  · exact (h.setEntry _ _).startInEvent _ _ _
  · exact h.retireWell _ _ _

theorem actFinal (h : s.LanesLawful) (e : Fin 64) (r : Entry) (t : Instant) : (s.actFinal e r t).LanesLawful :=
  ((h.setEntry _ _).serveStrobe _ _).afterRun _ _ _

theorem actRunning (h : s.LanesLawful) (e : Fin 64) (t : Instant) : (s.actRunning e t).LanesLawful :=
  .ite (h.setEntry_follow _ _ _) (.ite (.ite (h.actFinal _ _ _) (h.setEntry_follow _ _ _)) (h.setEntry_follow _ _ _))

theorem takeAction (h : s.LanesLawful) (e : Fin 64) (t : Instant) : (s.takeAction e t).LanesLawful := by
  have hd := h.removeDue e
  unfold State.takeAction
  dsimp only
  split
  · exact hd.setEntry_follow _ _ _
  · exact hd.actRunning _ _
  · exact hd.actRunning _ _
  · exact hd
  · exact hd
  · exact hd

/-! ### The walk (R88 to R92) -/

theorem triggerStart (h : s.LanesLawful) (n : Fin 8) (e : Fin 64) (mode : Mode) (stamp : Instant) :
    (s.triggerStart n e mode stamp).LanesLawful := by
  cases mode
  · exact ((h.setEntry _ _).setLine _ _).insertItem _
  · exact (h.setEntry _ _).insertItem _

theorem retrigger (h : s.LanesLawful) (e : Fin 64) (policy : Retrigger) (stamp : Instant) :
    (s.retrigger e policy stamp).LanesLawful := by
  cases policy
  · exact h
  · exact h.startInEvent _ _ _
  · exact .ite h h

theorem visit (h : s.LanesLawful) (n : Fin 8) (stamp : Instant) (e : Fin 64) : (s.visit n stamp e).LanesLawful := by
  unfold State.visit
  repeat' split
  · exact h.triggerStart _ _ _ _
  · exact h.retrigger _ _ _
  · exact h
  · exact h
  · exact h

theorem walk (h : s.LanesLawful) (n : Fin 8) (stamp : Instant) : (s.walk n stamp).LanesLawful :=
  List.foldlRecOn _ _ h fun _ ht e _ => ht.visit n stamp e

/-! ### The tick event (R2, R70, R81) -/

theorem filterSample (h : s.LanesLawful) (n : Fin 8) (level : Level) : (s.filterSample n level).LanesLawful := by
  unfold State.filterSample
  dsimp only
  repeat' split
  · exact h
  · exact h
  · exact .ite ((h.setLine _ _).walk _ _) h
  · exact h

theorem takeSample (h : s.LanesLawful) (n : Fin 8) (level : Level) : (s.takeSample n level).LanesLawful :=
  .ite ((h.setLine _ _).filterSample _ _) h

theorem countdown (h : s.LanesLawful) (k : Fin 4) : (s.countdown k).LanesLawful := .ite h h

theorem overrunOne (h : s.LanesLawful) : s.overrunOne.LanesLawful := by
  unfold State.overrunOne
  split
  · exact (h.removeDue _).retireBroken _ _
  · exact h

theorem overrunStep (k : Nat) {s : State} (h : s.LanesLawful) : (s.overrunStep k).LanesLawful := by
  induction k generalizing s with
  | zero => exact h
  | succ k ih => exact ih h.overrunOne

theorem actionOne (h : s.LanesLawful) : s.actionOne.LanesLawful := by
  unfold State.actionOne
  split
  · exact (h.setDispatch _).takeAction _ _
  · exact h

theorem actionStep (k : Nat) {s : State} (h : s.LanesLawful) : (s.actionStep k).LanesLawful := by
  induction k generalizing s with
  | zero => exact h
  | succ k ih => exact ih h.actionOne

theorem takeUnit (h : s.LanesLawful) (u : TickUnit) : (s.takeUnit u).LanesLawful := by
  cases u with
  | dispatch => exact .ite ((h.overrunStep _).actionStep _) h
  | sample n => exact h.takeSample n _
  | countdown k => exact h.countdown k

theorem takeUnits (h : s.LanesLawful) (units : List TickUnit) : (s.takeUnits units).LanesLawful :=
  List.foldlRecOn units State.takeUnit h fun _ ht u _ => ht.takeUnit u

theorem settle (h : s.LanesLawful) : s.settle.LanesLawful := by
  unfold State.settle
  exact h.takeUnits tickUnits

/-- A tick event keeps the law of lanes: its beginning writes no lane (R1, R2). -/
theorem tick (h : s.LanesLawful) (levels : BitVec 8) (order : List TickUnit) : (s.tick levels order).LanesLawful := by
  unfold State.tick
  refine takeUnits (h.settle.congr ?_) order
  obtain ⟨ls, ks, hb⟩ := s.settle.beginTick_eq levels
  rw [hb]

/-! ### Trips (R131, R132) -/

/-- The lane steps of an event's trips keep the law, whatever lanes and sources they name (R131, R133). -/
theorem laneSteps (h : s.LanesLawful) (trips : List Trip) : (trips.foldl State.laneStep s).LanesLawful :=
  List.foldlRecOn trips State.laneStep h fun t ht x _ l => by
    rw [t.laneStep_lane]
    split
    · exact (ht l).tripped x.source
    · exact ht l

theorem takeTrips (h : s.LanesLawful) (trips : List Trip) : (s.takeTrips trips).LanesLawful := by
  unfold State.takeTrips State.entryStep
  exact List.foldlRecOn _ _ (List.foldlRecOn _ _ (h.laneSteps trips) fun _ ht e _ => ht.retireOne e _ _)
    fun _ ht e _ => ht.breakBehind e

theorem changeSource (h : s.LanesLawful) (i : TripInput) (r : TripSource) : (s.changeSource i r).LanesLawful :=
  (h.setTrip i r).takeTrips _

theorem sampleTripPin (h : s.LanesLawful) (i : TripInput) (level : Level) : (s.sampleTripPin i level).LanesLawful :=
  (h.setTripPin i level).changeSource _ _

theorem tripReads (h : s.LanesLawful) (i : TripInput) (read : InputState) : (s.tripReads i read).LanesLawful :=
  .ite ((h.settle.setTripPin i _).changeSource _ _) h

end State.LanesLawful

end Sys2Proof.Machine
end

section
/-! SUPPORT. Every request keeps the law of lanes: SCHEDULE claims (R101, R117), LANE_SET forces (R105), DRAIN, CANCEL and TRIP
retire, CLEAR_TRIP and SOFT_RESET free lanes (R108, R136), LANE_CONFIG writes settings (R104), and no other writes a lane. -/

namespace Sys2Proof.Machine

/-! ### SCHEDULE and SCHEDULE_SET (R22, R101, R117, R124) -/

/-- An entry is never scheduled behind itself (R115). -/
theorem State.resolveStart_ne_after {s : State} {e : Fin 64} {f : StartFields} {start : Start}
    (h : s.resolveStart e f = .ok start) : start ≠ .after e := by
  unfold State.resolveStart at h
  repeat' split at h
  · exact Except.ok.inj h ▸ nofun
  · exact Except.ok.inj h ▸ nofun
  · next p _ hc =>
    rw [← Except.ok.inj h]
    rintro ⟨⟩
    simp [State.chainValid] at hc
  · cases h
  · cases h

namespace State.LanesLawful

variable {s t : State}

theorem claimLane (h : s.LanesLawful) {e : Fin 64} {start : Start} (hs : start ≠ .after e)
    (ht : s.claimLane e start = .ok t) : t.LanesLawful := by
  unfold State.claimLane at ht
  split at ht
  · exact Except.ok.inj ht ▸ h
  · next l _ =>
    split at ht
    · next r hr => exact Except.ok.inj ht ▸ h.setLane l ((h l).claim hs hr)
    · cases ht

theorem place (h : s.LanesLawful) (e : Fin 64) (start : Start) : (s.place e start).LanesLawful := by
  cases start with
  | atTime => exact (h.setEntry _ _).insertItem _
  | onTrigger | after => exact h

theorem scheduleChecked (h : s.LanesLawful) {e : Fin 64} {f : StartFields} (ht : s.scheduleChecked e f = .ok t) :
    t.LanesLawful := by
  unfold State.scheduleChecked at ht
  split at ht
  · cases ht
  · next hr =>
    split at ht
    · cases ht
    · next hc =>
      split at ht
      · cases ht
      · exact Except.ok.inj ht ▸ (h.claimLane (State.resolveStart_ne_after hr) hc).place _ _

theorem scheduleMember (h : s.LanesLawful) {f : StartFields} {b : Byte} (ht : s.scheduleMember f b = .ok t) :
    t.LanesLawful := by
  unfold State.scheduleMember at ht
  split at ht
  · cases ht
  · split at ht
    · exact h.scheduleChecked ht
    · cases ht

theorem scheduleMembers {f : StartFields} {members : List Byte} {k : Nat} {s t : State} (h : s.LanesLawful)
    (ht : s.scheduleMembers f k members = .ok t) : t.LanesLawful := by
  induction members generalizing s k with
  | nil => exact Except.ok.inj ht ▸ h
  | cons b rest ih =>
    unfold State.scheduleMembers at ht
    split at ht
    · next hb => exact ih (h.scheduleMember hb) ht
    · cases ht

/-! ### CLEAR_TRIP (R136) -/

theorem releaseTrip (h : s.LanesLawful) (src : TripId) : (s.releaseTrip src).LanesLawful := fun x => by
  rw [s.releaseTrip_lane]
  exact (h x).untripped src

theorem clearSource (h : s.LanesLawful) (src : TripId) : (s.clearSource src).LanesLawful := by
  cases src
  · exact (h.setTrip .a _).releaseTrip .a
  · exact (h.setTrip .b _).releaseTrip .b
  · exact (h.setSoft _).releaseTrip .soft

end State.LanesLawful

/-! ### The requests -/

section Requests

variable {s : State} (h : s.LanesLawful)
include h

theorem reqSchedule_lanesLawful (entry kind : Byte) (block : StartBlock) :
    (reqSchedule entry kind block s).1.LanesLawful := by
  refine withEntry_ind (P := fun r => r.1.LanesLawful) _ _ _ h fun e => ?_
  repeat' split
  · exact h
  · next ht => exact h.scheduleChecked ht
  · exact h
  · exact h

theorem reqScheduleSet_lanesLawful (count kind : Byte) (block : StartBlock) (members : List Byte) :
    (reqScheduleSet count kind block members s).1.LanesLawful := by
  unfold reqScheduleSet
  repeat' split
  · exact h
  · exact h
  · exact h
  · next ht => exact h.scheduleMembers ht
  · exact h

theorem reqDrain_lanesLawful (entry : Byte) : (reqDrain entry s).1.LanesLawful := by
  refine withEntry_ind (P := fun r => r.1.LanesLawful) _ _ _ h fun e => ?_
  dsimp only
  repeat' split
  · exact h
  · exact h.retireWell _ _ _
  · exact h

theorem reqCancel_lanesLawful (entry : Byte) : (reqCancel entry s).1.LanesLawful := by
  refine withEntry_ind (P := fun r => r.1.LanesLawful) _ _ _ h fun e => ?_
  split
  · exact h.retireBroken _ _
  · exact h

theorem reqLaneConfig_lanesLawful (lane polarity safe : Byte) :
    (reqLaneConfig lane polarity safe s).1.LanesLawful := by
  unfold reqLaneConfig
  repeat' split
  · exact h
  · next l p safe _ _ _ _ => exact h.setLane l ((h l).configured p safe)
  · exact h

theorem reqLaneSet_lanesLawful (lane value : Byte) : (reqLaneSet lane value s).1.LanesLawful := by
  unfold reqLaneSet
  split
  · next l f _ _ =>
    split
    · exact h
    · next ht =>
      split
      · exact h
      · next ho => exact h.setLane l ((h l).forcedTo (TrippedBy.eq_empty_of_not_any ht) (not_not.mp ho) f)
  · exact h

theorem reqTrip_lanesLawful (g : LaneGroup) : (reqTrip g s).1.LanesLawful := by
  unfold reqTrip
  split
  · exact h
  · exact (h.setSoft (s.soft.tripped g)).takeTrips _

theorem reqClearTrip_lanesLawful (source : Byte) : (reqClearTrip source s).1.LanesLawful := by
  unfold reqClearTrip
  repeat' split
  · exact h
  · exact h.clearSource _
  · exact h
  · exact h

end Requests

/-- SOFT_RESET leaves no claim and no forced level (R108). -/
theorem reqSoftReset_lanesLawful (s : State) : (reqSoftReset s).1.LanesLawful := fun x => by
  unfold reqSoftReset
  rw [State.clearClaims_lane]
  exact Lane.unclaimed_lawful _ _

/-- The request works on lanes. -/
def worksOnLanes : Instr → Bool
  | .schedule .. | .scheduleSet .. | .drain .. | .cancel .. | .laneConfig .. | .laneSet .. | .trip .. | .clearTrip ..
  | .softReset .. => true
  | _ => false

/-- The other requests leave every lane as it was. -/
theorem serve_lanes {c : Instr} {s : State} {r : State × Answer} (h : serve c s = some r) (hc : worksOnLanes c = false) :
    r.1.lanes = s.lanes := by
  cases c <;> cases h
  case nop | readTime | summary => rfl
  case query => exact withEntry_ind (P := fun r => r.1.lanes = s.lanes) _ _ _ rfl fun _ => rfl
  case define | ack | release =>
    refine withEntry_ind (P := fun r => r.1.lanes = s.lanes) _ _ _ rfl fun e => ?_
    (repeat' split) <;> rfl
  case amend =>
    refine withEntry_ind (P := fun r => r.1.lanes = s.lanes) _ _ _ rfl fun e => ?_
    dsimp only
    (repeat' split) <;> rfl
  case setTime => unfold reqSetTime; split <;> rfl
  case setDivider => unfold reqSetDivider; (repeat' split) <;> rfl
  case triggerConfig => unfold reqTriggerConfig; split <;> rfl
  case laneQuery => unfold reqLaneQuery; split <;> rfl
  case strobeConfig => unfold reqStrobeConfig; (repeat' split) <;> rfl
  case tripConfig =>
    unfold reqTripConfig
    repeat' split
    · rfl
    · exact s.setTrip_lanes _ _
    · rfl
  all_goals exact Bool.noConfusion hc

/-- Every owner of a request keeps the law of lanes. -/
theorem serve_lanesLawful {c : Instr} {s : State} {r : State × Answer} (hr : serve c s = some r) (h : s.LanesLawful) :
    r.1.LanesLawful := by
  have hrest : worksOnLanes c = false → r.1.LanesLawful := fun hc => h.congr (serve_lanes hr hc)
  cases c <;> cases hr
  case schedule => exact reqSchedule_lanesLawful h _ _ _
  case scheduleSet => exact reqScheduleSet_lanesLawful h _ _ _ _
  case drain => exact reqDrain_lanesLawful h _
  case cancel => exact reqCancel_lanesLawful h _
  case laneConfig => exact reqLaneConfig_lanesLawful h _ _ _
  case laneSet => exact reqLaneSet_lanesLawful h _ _
  case trip => exact reqTrip_lanesLawful h _
  case clearTrip => exact reqClearTrip_lanesLawful h _
  case softReset => exact reqSoftReset_lanesLawful s
  all_goals exact hrest rfl

end Sys2Proof.Machine
end

section
/-! CERTIFICATE. Every command and every CLK edge keeps the law of lanes (R98 to R101, R103, R131). -/

namespace Sys2Proof.Machine

namespace State.LanesLawful

variable {s : State}

/-! ### Executions (R146) -/

theorem serveSettled (h : s.LanesLawful) (c : Instr) : (s.serveSettled c).1.LanesLawful := by
  unfold State.serveSettled
  cases hs : serve c s.settle with
  | none => exact h
  | some r => exact serve_lanesLawful hs h.settle

theorem endExecution (h : s.LanesLawful) : s.endExecution.LanesLawful := by
  unfold State.endExecution
  split
  · exact h.serveSettled _
  · exact h
  · exact h
  · exact h

/-- A request keeps the law of lanes, at its take point and as a whole execution (R146). -/
theorem request (h : s.LanesLawful) {c : Instr} {own : State → State × Answer} (hc : ∀ s, serve c s = some (own s)) :
    (s.request c own).LanesLawful :=
  .ite h (.ite (serve_lanesLawful (hc _) h.settle) (serve_lanesLawful (hc _) h.endExecution.settle))

/-! ### The CLK edge -/

theorem clkTimebase (h : s.LanesLawful) (order : List TickUnit) : (s.clkTimebase order).LanesLawful :=
  .ite (h.tick _ _) h

theorem clkTrips (h : s.LanesLawful) (restarted : List TripInput) : (s.clkTrips restarted).LanesLawful := by
  unfold State.clkTrips
  dsimp only
  generalize s.sourceAtEdge restarted .a = a, s.sourceAtEdge restarted .b = b
  split
  · exact ((h.setTrip .a a).setTrip .b b).takeTrips _
  · next tag g _ => exact (((h.setTrip .a a).setTrip .b b).setSoft (s.soft.tripped g)).takeTrips _

theorem clkExecution (h : s.LanesLawful) : s.clkExecution.LanesLawful := by
  unfold State.clkExecution
  split
  · exact .ite h.endExecution h
  · exact h
  · exact h

theorem clkUnit (h : s.LanesLawful) (order : List TickUnit) (restarted : List TripInput) (u : Config.EdgeUnit) :
    (s.clkUnit order restarted u).LanesLawful := by
  cases u with
  | timebase => exact h.clkTimebase order
  | tripSamples => exact h.clkTrips restarted
  | execution => exact .ite (h.clkTrips restarted) h.clkExecution

end State.LanesLawful

theorem EdgeWork.take_lanesLawful (w : EdgeWork) (tickOrder : List TickUnit) (h : w.state.LanesLawful)
    (u : Config.EdgeUnit) : (w.take tickOrder u).state.LanesLawful := by
  unfold EdgeWork.take
  split
  · exact h
  · exact h.clkUnit tickOrder w.restarted u

theorem State.LanesLawful.clkPartsIn {s : State} (h : s.LanesLawful) (order : List Config.EdgeUnit)
    (tickOrder : List TickUnit) : (s.clkPartsIn order tickOrder).LanesLawful := by
  have hw := List.foldlRecOn (motive := fun w : EdgeWork => w.state.LanesLawful) order (EdgeWork.take tickOrder)
    (b := { state := s, overtaken := [], restarted := [] }) h fun w hw u _ => w.take_lanesLawful tickOrder hw u
  exact .ite hw hw

/-- A CLK edge keeps the law of lanes, in every order of its parts (log entry 4). -/
theorem State.LanesLawful.clkEdge {s : State} (h : s.LanesLawful) : s.clkEdge.LanesLawful := by
  have hp : s.settle.clkParts.LanesLawful := by
    unfold State.clkParts
    exact h.settle.clkPartsIn _ _
  exact .ite h hp

/-! ### The commands -/

/-- A reset leaves every lane without claims and sources (R108). -/
theorem State.blocksReset_lanesLawful (s : State) (pins : Pins) (transaction : Transaction) :
    (s.blocksReset pins transaction).LanesLawful := fun l => by
  have hl : (s.blocksReset pins transaction).lane l = Lane.reset := State.reset_lane l
  rw [hl]
  exact Lane.reset_lawful

/-- Every command answers a next state that keeps the law of lanes. -/
theorem exec_lanesLawful {s : State} (h : s.LanesLawful) (c : Instr) : ∃ t, exec c s = .next t ∧ t.LanesLawful := by
  rcases hr : isRequest c with _ | _
  · cases c
    case powerOn | resetNAssert => exact ⟨_, rfl, s.blocksReset_lanesLawful _ _⟩
    case resetNRelease => exact ⟨_, rfl, .ite (s.blocksReset_lanesLawful _ _) h⟩
    case tickEvent levels order => exact ⟨_, rfl, .ite h (h.tick levels order)⟩
    case overrun => exact ⟨_, rfl, .ite h (.ite h.overrunOne h)⟩
    case action => exact ⟨_, rfl, .ite h h.actionOne⟩
    case strobePulseEnd k => exact ⟨_, rfl, .ite h (.ite (h.countdown k) h)⟩
    case triggerSample n level =>
      exact ⟨_, rfl, .ite h (.ite ((h.setTrg n level).takeSample n level) h)⟩
    case qualifiedEdge n =>
      refine ⟨_, rfl, .ite h ?_⟩
      dsimp only
      split
      · exact .ite ((h.setTrg n _).takeSample n _) h
      · exact h
    case tripInputActive i | tripInputInactive i => exact ⟨_, rfl, .ite h (h.tripReads i _)⟩
    case tripFilterSample i level => exact ⟨_, rfl, .ite h (h.settle.sampleTripPin i level)⟩
    case csNFall => exact ⟨_, rfl, .ite h (.ite h h)⟩
    case csNRise | byteReceived => exact ⟨_, rfl, .ite h h⟩
    case executionEnd => exact ⟨_, rfl, .ite h h.endExecution⟩
    all_goals exact Bool.noConfusion hr
  · obtain ⟨own, hs, he⟩ := exec_of_isRequest hr
    exact ⟨_, he s, h.request hs⟩

/-- Settles O55: a step is a command or a CLK edge, and each write that they make of a lane keeps its law. -/
theorem everyStepKeepsTheLaneLaw : Obligations.EveryStepKeepsTheLaneLaw := by
  unfold Obligations.EveryStepKeepsTheLaneLaw
  intro s t h hst
  unfold step at hst
  split at hst
  · next c rest _ =>
    obtain ⟨u, hu, hl⟩ := exec_lanesLawful (s := s.withPending rest) h c
    rwa [← Host.Outcome.next.inj (hu.symm.trans hst)]
  · rw [← Host.Outcome.next.inj hst]
    exact h.clkEdge

end Sys2Proof.Machine
end

section
/-! CERTIFICATE. The output pins: the level of a lane by the precedence of Table 6-2 (R98, R99), and the end of a strobe pulse
(R110, Table 6-5). -/

namespace Sys2Proof.Machine

/-! ### The level of a lane (R98, R99) -/

section Level

variable {r : Lane}

/-- A lane that a source holds shows its safe level (R99). -/
theorem Lane.presentLevel_of_tripped (h : r.trippedBy ≠ TrippedBy.empty) : r.presentLevel = r.safeLevel :=
  if_pos ((TrippedBy.any_iff _).mpr h)

/-- An owned lane that no source holds shows the level its owner calls for (R99, R102). -/
theorem Lane.presentLevel_of_owned (h : r.trippedBy = TrippedBy.empty) (ho : r.owner ≠ none) :
    r.presentLevel = if r.call = .active then r.polarity.activeLevel else r.polarity.idleLevel := by
  obtain ⟨e, he⟩ := Option.ne_none_iff_exists'.mp ho
  cases hc : r.call <;> simp [Lane.presentLevel, TrippedBy.any, TrippedBy.empty, h, he, hc]

/-- A lane without source and owner shows its forced level, or its idle level (R99, R105). -/
theorem Lane.presentLevel_of_unowned (h : r.trippedBy = TrippedBy.empty) (ho : r.owner = none) :
    r.presentLevel = if r.forced = some .active then r.polarity.activeLevel
      else if r.forced = some .float then .float else r.polarity.idleLevel := by
  rcases hf : r.forced with _ | _ | _ | _ <;> simp [Lane.presentLevel, TrippedBy.any, TrippedBy.empty, h, ho, hf]

end Level

theorem Polarity.activeLevel_eq (p : Polarity) : p.activeLevel = if p = .activeHigh then .high else .low := by
  cases p <;> rfl

theorem Polarity.idleLevel_eq (p : Polarity) : p.idleLevel = if p = .activeHigh then .low else .high := by
  cases p <;> rfl

/-- Outside reset a lane's pin shows its present level (R99, R108). -/
theorem State.lanePin_of_running {s : State} (h : s.inReset = false) (l : Fin 16) :
    s.lanePin l = (s.lane l).presentLevel := if_neg (by simp [h])

/-- Settles O48: outside reset the pin is the present level, one lemma for each row of Table 6-2. -/
theorem laneLevelsByPrecedence : Obligations.LaneLevelsByPrecedence := by
  unfold Obligations.LaneLevelsByPrecedence
  intro s l hr r active idle
  rw [State.lanePin_of_running hr, show active = r.polarity.activeLevel from r.polarity.activeLevel_eq.symm,
    show idle = r.polarity.idleLevel from r.polarity.idleLevel_eq.symm]
  exact ⟨Lane.presentLevel_of_tripped, Lane.presentLevel_of_owned, Lane.presentLevel_of_unowned⟩

/-! ### The end of a pulse (R110) -/

/-- Outside reset a strobe line's pin is HIGH exactly while its pulse lasts (Table 6-5). -/
theorem State.strobePin_of_running {s : State} (h : s.inReset = false) (k : Fin 4) :
    s.strobePin k = if 0 < (s.strobe k).remaining then .high else .low := if_neg (by simp [h])

/-- STROBE_PULSE_END takes the countdown of a line that owes its last one (R110). -/
theorem State.exec_strobePulseEnd_of_due {s : State} {k : Fin 4} (hr : s.inReset = false)
    (hdue : (s.strobe k).countdownDue = true) (hlast : (s.strobe k).remaining = 1) :
    exec (.strobePulseEnd k) s = .next (s.countdown k) :=
  congrArg Host.Outcome.next ((State.whenRunning_of_running hr _).trans (if_pos ⟨hdue, hlast⟩))

/-- Settles O17: the countdown owed takes `remaining` from 1 to 0, and the pin follows it. -/
theorem strobePulseEnds : Obligations.StrobePulseEnds := by
  unfold Obligations.StrobePulseEnds
  intro s k hr hdue hlast
  refine ⟨?_, ?_, ?_⟩
  · rw [State.exec_strobePulseEnd_of_due hr hdue hlast, State.countdown, if_pos hdue, hlast]
  · rw [State.strobePin_of_running hr, hlast]
    rfl
  · rw [State.strobePin_of_running (s := s.setStrobe k _) hr, State.strobe_setStrobe_self]
    rfl

end Sys2Proof.Machine
end

section
/-! SUPPORT. ACTION at the nominal end of a run whose entry has a waiting successor (R119, R120, R121): the strobe requests of
the two entries in one event, and the retirement with its hand-off at the nominal end. -/

namespace Sys2Proof.Machine

/-! ### The requests of two entries in one event (R46, R109, R111) -/

section TwoRequests

variable {s u t : State} {p y : Fin 64} {a b : Bool}

/-- A strobe line after the request of an entry (R109). -/
theorem State.StrobeServed.strobe_eq (h : s.StrobeServed u p a) (k : Fin 4) :
    u.strobe k = if a = true ∧ (s.entry p).prog.strobe.map StrobeUse.line = some k ∧ (s.strobe k).remaining = 0
      then (s.strobe k).pulsed else s.strobe k := by
  have hk := h.1 k
  split at hk
  · next hc => rw [if_pos hc]; exact hk
  · next hc => rw [if_neg hc]; exact hk

/-- A line is HIGH after a request where it was HIGH before, or where the request began a pulse that has a length (R109). -/
theorem State.StrobeServed.high_iff (h : s.StrobeServed u p a) (k : Fin 4) :
    (u.strobe k).remaining ≠ 0 ↔ (s.strobe k).remaining ≠ 0 ∨
      (a = true ∧ (s.entry p).prog.strobe.map StrobeUse.line = some k ∧ (s.strobe k).width ≠ 0) := by
  rw [h.strobe_eq k]
  split
  · next hc => simp [hc, StrobeLine.pulsed]
  · next hc => exact ⟨.inl, fun hor => hor.elim id fun ⟨ha, hl, _⟩ h0 => hc ⟨ha, hl, h0⟩⟩

/-- A LOW line that one of two entries asks for in an event begins one pulse; any other line is as it was (R109, R111). -/
theorem State.StrobeServed.pulse_of_two (h : s.StrobeServed u p a) (h' : u.StrobeServed t y b) (k : Fin 4) :
    t.strobe k =
      if (s.strobe k).remaining = 0 ∧ ((a = true ∧ (s.entry p).prog.strobe.map StrobeUse.line = some k) ∨
          (b = true ∧ (u.entry y).prog.strobe.map StrobeUse.line = some k))
      then (s.strobe k).pulsed else s.strobe k := by
  rw [h'.strobe_eq k, h.strobe_eq k]
  by_cases hp : a = true ∧ (s.entry p).prog.strobe.map StrobeUse.line = some k ∧ (s.strobe k).remaining = 0
  · obtain ⟨ha, hl, h0⟩ := hp
    simp [ha, hl, h0, StrobeLine.pulsed]
  · rw [if_neg hp]
    refine if_congr ⟨fun ⟨hb, hl, h0⟩ => ⟨h0, .inr ⟨hb, hl⟩⟩, fun ⟨h0, hor⟩ => ?_⟩ rfl rfl
    exact hor.elim (fun ⟨ha, hl⟩ => absurd ⟨ha, hl, h0⟩ hp) fun ⟨hb, hl⟩ => ⟨hb, hl, h0⟩

/-- The second request is merged on a line that was HIGH, or on which the first has begun a pulse (R111). -/
theorem State.StrobeServed.merged_of_two (h : s.StrobeServed u p a) (h' : u.StrobeServed t y b) :
    (t.entry y).flags.strobeMerged = ((u.entry y).flags.strobeMerged ||
      (b && (u.entry y).prog.strobe.any fun x => decide ((s.strobe x.line).remaining ≠ 0 ∨
        (a = true ∧ (s.entry p).prog.strobe.map StrobeUse.line = some x.line ∧ (s.strobe x.line).width ≠ 0)))) := by
  simpa only [h.high_iff] using h'.2

end TwoRequests

/-! ### The retirement with its hand-off at the nominal end (R103, R120) -/

section HandOff

variable {s t : State} {p y : Fin 64} {oc : EntryOutcome} {start : Instant}

/-- `t` is what a retirement of entry `p` with the start of its waiting successor `y` at an instant leaves of `s` (R120). -/
structure State.HandsOff (s t : State) (p y : Fin 64) (oc : EntryOutcome) (start : Instant) : Prop where
  retired : (s.entry p).RetiredAs (t.entry p) oc s.now
  released : t.Released p
  handedOver : s.HandedOver t p y start
  strobe : s.StrobeServed t y ((s.entry y).prog.pointServed 0 true)
  others : s.SameEntriesBut t (p :: y :: (s.entry p).predecessor.toList)

/-- A retirement hands off to a waiting successor whose run begins no more than 255 ticks before `now` (R119, R120). -/
theorem State.retireWell_handsOff (hsch : (s.entry p).scheduled = true) (hsucc : (s.entry p).successor = some y) (hne : y ≠ p)
    (hpending : (s.entry y).state = .pending) (hstaged : (s.entry y).staged = Staged.none) (hp : (s.entry y).prog.Lawful)
    (hkept : (s.now - start).toNat ≤ 255) : s.HandsOff (s.retireWell p oc start) p y oc start := by
  have hf := State.retireWell_followed oc hsch hsucc hne hpending hstaged hp hkept
  generalize s.retireWell p oc start = t at hf ⊢
  have hrec := State.retireFor_successor oc hsch hne
  have hsame : t.entry p = (s.retireFor p y oc).entry p := hf.others p fun c => hne (List.mem_singleton.mp c).symm
  obtain ⟨hitem, hgone, hitems⟩ := hf.itemsHandedOver hsch hne
  refine ⟨?_, hf.released hne.symm (State.retireFor_released oc hsch hsucc hne),
    ⟨hf.record, hitem, hgone, hitems, hf.lanesHandedOver hsch hne⟩, hf.strobe.congr ?_ rfl ?_ ?_ rfl, fun x hx => ?_⟩
  · rw [hsame]
    exact State.retireFor_retired oc hsch hsucc hne
  · rw [State.retireFor, State.unlink_strobes, State.retireOne_strobes]
  · rw [hrec]
  · rw [hrec]
  · exact (hf.others x fun c => hx (by simp [List.mem_singleton.mp c])).trans (s.retireFor_sameEntriesBut p y oc x hx)

/-- A hand-off is told of the state before the item of the predecessor was taken out and its last instants were written. -/
theorem State.HandedOver.of_ended {v : State} (h : v.HandedOver t p y start) (hy : v.entry y = s.entry y)
    (hpred : (v.entry p).predecessor = (s.entry p).predecessor) (hlane : (v.entry p).prog.lane = (s.entry p).prog.lane)
    (hlanes : v.lanes = s.lanes) (hdue : v.due = s.due.filter fun i => decide (i.entry ≠ p)) : s.HandedOver t p y start := by
  obtain ⟨hrec, hitem, hgone, hitems, hover⟩ := h
  have hl : ∀ l, v.lane l = s.lane l := fun l => by rw [State.lane, State.lane, hlanes]
  rw [hy] at hitem
  rw [hy, hpred] at hrec
  refine ⟨hrec, hitem, hgone, hitems.trans ?_, fun l => ?_⟩
  · rw [hdue, List.filter_filter]
    refine List.filter_congr fun i _ => ?_
    by_cases hi : i.entry = p <;> simp [hi]
  · have hc := hover l
    rwa [hy, hlane, hl] at hc

end HandOff

/-- The end of a run of an entry that is not EVERY, or is DRAINING, is its retirement, DRAINED or COMPLETED (R50, R53). -/
theorem State.afterRun_of_ended {s : State} {e : Fin 64} (t : Instant) (served : Bool)
    (h : (s.entry e).state = .draining ∨ ((s.entry e).state = .running ∧ (s.entry e).isEvery = false)) :
    s.afterRun e t served = s.retireWell e (if (s.entry e).state = .draining then .drained else .completed) t := by
  rcases h with hd | ⟨hr, he⟩
  · rw [if_pos hd]
    exact State.afterRun_of_draining t served hd
  · have hnd : (s.entry e).state ≠ .draining := by simp [hr]
    rw [if_neg hnd]
    exact State.afterRun_of_not_every t served hnd he

/-- Settles O16: the end of the run is the retirement that hands off at the nominal end. -/
theorem handOffStartsTheSuccessor : Obligations.HandOffStartsTheSuccessor := by
  unfold Obligations.HandOffStartsTheSuccessor
  intro s d i y h
  dsimp only
  intro hstate hp ho hsucc hne hpending _ hstaged hq
  obtain ⟨v, hexec, hrec, hstrobe, hothers, hframe, es, ks, hv⟩ :=
    h.exec_action_of_final (hstate.imp_right fun ⟨hr, _, hc⟩ => ⟨hr, hc⟩) hp ho
  have hst : (v.entry i.entry).state = (s.entry i.entry).state := by rw [hrec]
  have hy : v.entry y = s.entry y := hothers y fun c => hne (List.mem_singleton.mp c)
  have hnow : v.now = s.now := hframe.now_eq
  rw [State.afterRun_of_ended _ _ (by rw [hrec]; exact hstate.imp_right fun ⟨hr, he, _⟩ => ⟨hr, he⟩), hst] at hexec
  generalize (if (s.entry i.entry).state = .draining then EntryOutcome.drained else .completed) = oc at hexec ⊢
  have hsch : (v.entry i.entry).scheduled = true := by
    rw [hrec]
    rcases hstate with hd | ⟨hr, -⟩ <;> simp [Entry.scheduled, *]
  obtain ⟨-, -, -, -, -, hlate⟩ := h
  obtain ⟨hretired, hreleased, hover, hserved, hsame⟩ := State.retireWell_handsOff (oc := oc) (start := i.due) hsch
    (by rw [hrec]; exact hsucc) hne (by rw [hy]; exact hpending) (by rw [hy]; exact hstaged) (by rw [hy]; exact hq)
    (by rw [hnow]; exact hlate)
  have hf := hframe.trans (v.retireWell_frame i.entry oc i.due)
  generalize v.retireWell i.entry oc i.due = t at *
  rw [hy] at hserved
  have hpulse := hstrobe.pulse_of_two hserved
  have hmerged := hstrobe.merged_of_two hserved
  rw [hy] at hmerged
  refine ⟨t, hexec, ?_, hreleased, ?_, fun k => ?_, hmerged, ?_, fun x hx => ?_, hf.filters, hf.lanes, hf.outside⟩
  · rw [hnow, hrec, hstrobe.2] at hretired
    exact hretired
  · refine hover.of_ended hy ?_ ?_ ?_ ?_
    · rw [hrec]
    · rw [hrec]
    · rw [hv]; rfl
    · rw [hv]; rfl
  · have hk := hpulse k
    rw [hy] at hk
    exact hk
  · exact hsucc ▸ hf.dispatch
  · rw [hrec] at hsame
    exact (hsame x hx).trans (hothers x fun c => hx (List.mem_singleton.mp c ▸ List.mem_cons_self))

end Sys2Proof.Machine
end

section
/-! SUPPORT. SCHEDULE_SET (R124 to R126, R158): its judgement as a whole, and its members as SCHEDULE requests one after
another. -/

namespace Sys2Proof.Machine

/-! ### The judgement as a whole (R124, R158) -/

/-- A byte names a trigger line exactly where it is at most 7. -/
theorem lineOf_isSome_iff (b : Byte) : (lineOf b).isSome = true ↔ b.toNat ≤ 7 := by
  unfold lineOf
  split
  · next h => exact iff_of_true rfl (Nat.le_of_lt_succ h)
  · next h => exact iff_of_false nofun fun c => h (Nat.lt_succ_of_le c)

/-- The one byte that names ONCE. -/
theorem modeOf_eq_once_iff (b : Byte) : modeOf b = some .once ↔ b = 0 := by
  unfold modeOf
  by_cases h0 : b = 0
  · rw [if_pos h0]
    exact iff_of_true rfl h0
  · rw [if_neg h0]
    refine iff_of_false ?_ h0
    split <;> nofun

/-- The start blocks that SCHEDULE_SET takes: AT_TIME, or ON_TRIGGER with mode ONCE (R124). -/
theorem setStartOf_isSome_iff (kind : Byte) (b : StartBlock) :
    (setStartOf kind b).isSome = true ↔
      (kind = 1 ∧ b.b4.toNat ≤ 1) ∨ (kind = 2 ∧ b.b0.toNat ≤ 7 ∧ b.b1 = 0) := by
  unfold setStartOf startFieldsOf
  by_cases h1 : kind = 1
  · subst h1
    rw [if_pos rfl, yesNoOf_eq]
    by_cases hl : b.b4.toNat ≤ 1 <;> simp [hl]
  · by_cases h2 : kind = 2
    · subst h2
      rw [if_neg h1, if_pos rfl, ← lineOf_isSome_iff, ← modeOf_eq_once_iff]
      cases lineOf b.b0 with
      | none => simp
      | some n =>
        cases modeOf b.b1 with
        | none => simp
        | some m =>
          cases m with
          | once => simp [retriggerFor]
          | every => cases hr : retriggerFor .every b.b2 <;> simp [hr]
    · rw [if_neg h1, if_neg h2]
      split <;> simp only [h1, h2, false_and, or_self] <;> simp

/-- The start of SCHEDULE_SET is that of its members' SCHEDULE requests (R124). -/
theorem startFieldsOf_of_setStartOf {kind : Byte} {b : StartBlock} {f : StartFields} (h : setStartOf kind b = some f) :
    startFieldsOf kind b = some f := (Option.filter_eq_some_iff.mp h).1

/-! ### One member is one SCHEDULE (R124) -/

/-- SCHEDULE, where its bytes name a start, is the judgement of one member (R124, R157). -/
theorem reqSchedule_of_startFields {kind : Byte} {b : StartBlock} {f : StartFields} (hf : startFieldsOf kind b = some f)
    (e : Byte) (s : State) :
    (∀ t, s.scheduleMember f e = .ok t → reqSchedule e kind b s = (t, .ok)) ∧
      ∀ st, s.scheduleMember f e = .error st → reqSchedule e kind b s = (s, .refusal st) := by
  unfold reqSchedule withEntry State.scheduleMember
  rw [hf]
  cases entryOf e with
  | none =>
    dsimp only
    exact ⟨fun _ h => (nomatch h), fun st h => by cases h; rfl⟩
  | some i =>
    dsimp only
    by_cases hi : (s.entry i).state = .idle
    · rw [if_pos hi, if_pos hi]
      exact ⟨fun t h => by rw [h], fun st h => by rw [h]⟩
    · rw [if_neg hi, if_neg hi]
      exact ⟨fun _ h => (nomatch h), fun st h => by cases h; rfl⟩

/-- A claim is refused with a status of a lane (R157). -/
theorem Lane.claim_error {l : Lane} {e : Fin 64} {start : Start} {st : Status} (h : l.claim e start = .error st) :
    st = .laneTripped ∨ st = .laneBusy ∨ st = .laneForced := by
  unfold Lane.claim at h
  repeat' split at h
  all_goals cases h
  all_goals simp

theorem State.claimLane_error {s : State} {e : Fin 64} {start : Start} {st : Status} (h : s.claimLane e start = .error st) :
    st = .laneTripped ∨ st = .laneBusy ∨ st = .laneForced := by
  unfold State.claimLane at h
  repeat' split at h
  · cases h
  · cases h
  · next hc => exact Except.error.inj h ▸ Lane.claim_error hc

theorem State.resolveStart_error {s : State} {e : Fin 64} {f : StartFields} {st : Status}
    (h : s.resolveStart e f = .error st) : st = .chainInvalid := by
  unfold State.resolveStart at h
  repeat' split at h
  all_goals cases h
  all_goals rfl

/-- The checks of SCHEDULE refuse with a status other than OK (R157). -/
theorem State.scheduleChecked_error {s : State} {e : Fin 64} {f : StartFields} {st : Status}
    (h : s.scheduleChecked e f = .error st) : st.code ≠ 0 := by
  unfold State.scheduleChecked at h
  repeat' split at h
  · next hr =>
    cases h
    rw [State.resolveStart_error hr]
    decide
  · next hc =>
    cases h
    rcases State.claimLane_error hc with rfl | rfl | rfl <;> decide
  · cases h
    decide
  · cases h

/-- A member that is refused is refused with a status other than OK (R124, R157). -/
theorem State.scheduleMember_error {s : State} {f : StartFields} {b : Byte} {st : Status}
    (h : s.scheduleMember f b = .error st) : st.code ≠ 0 := by
  unfold State.scheduleMember at h
  repeat' split at h
  · cases h
    decide
  · exact State.scheduleChecked_error h
  · cases h
    decide

/-! ### The response buffer has no part in it -/

theorem State.place_setBuffer (s : State) (e : Fin 64) (start : Start) (b : Buffer) :
    (s.setBuffer b).place e start = (s.place e start).setBuffer b := by
  cases start with
  | atTime t late =>
    rw [State.place_atTime, State.place_atTime]
    rfl
  | onTrigger n m r => rfl
  | after p => rfl

theorem State.claimLane_setBuffer (s : State) (e : Fin 64) (start : Start) (b : Buffer) :
    (s.setBuffer b).claimLane e start = (s.claimLane e start).map (·.setBuffer b) := by
  unfold State.claimLane
  rw [State.setBuffer_entry]
  cases (s.entry e).prog.lane with
  | none => rfl
  | some l =>
    dsimp only
    rw [State.setBuffer_lane]
    cases (s.lane l).claim e start <;> rfl

/-- The judgement of a member, and what it leaves, do not rest on the response buffer. -/
theorem State.scheduleMember_setBuffer (s : State) (f : StartFields) (x : Byte) (b : Buffer) :
    (s.setBuffer b).scheduleMember f x = (s.scheduleMember f x).map (·.setBuffer b) := by
  have hresolve : ∀ e, (s.setBuffer b).resolveStart e f = s.resolveStart e f := fun _ => rfl
  have hpast : ∀ start, (s.setBuffer b).timePast start = s.timePast start := fun _ => rfl
  unfold State.scheduleMember
  cases entryOf x with
  | none => rfl
  | some e =>
    dsimp only
    rw [State.setBuffer_entry]
    split
    · unfold State.scheduleChecked
      rw [hresolve]
      cases s.resolveStart e f with
      | error st => rfl
      | ok start =>
        dsimp only
        rw [State.claimLane_setBuffer, hpast]
        cases s.claimLane e start with
        | error st => rfl
        | ok u =>
          dsimp only [Except.map]
          rw [State.place_setBuffer]
          split <;> rfl
    · rfl

theorem State.scheduleMembers_setBuffer (f : StartFields) (members : List Byte) (k : Nat) (s : State) (b : Buffer) :
    (s.setBuffer b).scheduleMembers f k members = (s.scheduleMembers f k members).map (·.setBuffer b) := by
  induction members generalizing s k with
  | nil => rfl
  | cons x rest ih =>
    unfold State.scheduleMembers
    rw [State.scheduleMember_setBuffer]
    cases s.scheduleMember f x with
    | error st => rfl
    | ok t => exact ih (k + 1) t

/-! ### The members one after another (R124) -/

/-- A part that a run's events leave of a steady one is steady, with a response in its buffer (R146). -/
theorem State.RunFrame.steady {s t : State} (h : s.RunFrame t) (hs : s.Steady) (frame : List Byte) :
    (t.setBuffer (.ready frame)).Steady := by
  obtain ⟨hr, ⟨hd, hl, hk⟩, -⟩ := hs
  obtain ⟨-, -, hpins, -⟩ := h.outside
  refine ⟨?_, ⟨h.dispatch.trans hd, fun n => ?_, fun k => ?_⟩, rfl⟩
  · rw [State.setBuffer_inReset, State.inReset, hpins]
    exact hr
  · obtain ⟨-, -, -, -, -, -, hdue⟩ := TriggerLine.fields_of_sameFilter (h.filters n)
    exact hdue.trans (hl n)
  · exact Bool.eq_false_iff.mpr fun c => Bool.eq_false_iff.mp (hk k) (h.owed k c)

section Each

variable {tag kind : Byte} {b : StartBlock} {f : StartFields} {s t : State} (k : Nat)

/-- The first of a list of SCHEDULE requests: the others go on from what it leaves where it is answered OK (R124). -/
theorem scheduleEach_cons {x : Byte} {a : Answer} (rest : List Byte)
    (h : exec (.schedule tag x kind b) s = .next (t.setBuffer (.ready (responseFrame tag a)))) :
    scheduleEach tag kind b k (x :: rest) s =
      if a.status.code = 0 then scheduleEach tag kind b (k + 1) rest (t.setBuffer (.ready (responseFrame tag a)))
      else (t.setBuffer (.ready (responseFrame tag a)), some (k, a.status.code)) := by
  rw [scheduleEach, h]
  rfl

variable (hf : startFieldsOf kind b = some f)
include hf

/-- A member that SCHEDULE_SET accepts is one whose SCHEDULE is answered OK (R124). -/
theorem scheduleEach_cons_of_ok (hs : s.Steady) {x : Byte} (rest : List Byte) (hx : s.scheduleMember f x = .ok t) :
    scheduleEach tag kind b k (x :: rest) s =
      scheduleEach tag kind b (k + 1) rest (t.setBuffer (.ready (responseFrame tag .ok))) :=
  (scheduleEach_cons k rest (congrArg Host.Outcome.next
    (request_answered hs ((reqSchedule_of_startFields hf x s).1 t hx)))).trans (if_pos rfl)

/-- A member that SCHEDULE_SET refuses is one whose SCHEDULE is refused with the same status (R124, R125). -/
theorem scheduleEach_cons_of_error (hs : s.Steady) {x : Byte} (rest : List Byte) {st : Status}
    (hx : s.scheduleMember f x = .error st) : (scheduleEach tag kind b k (x :: rest) s).2 = some (k, st.code) := by
  rw [scheduleEach_cons k rest (congrArg Host.Outcome.next
    (request_answered hs ((reqSchedule_of_startFields hf x s).2 st hx)))]
  exact congrArg Prod.snd (if_neg (State.scheduleMember_error hx))

/-- What SCHEDULE requests of a list of members do on a steady part, against the members judged by SCHEDULE_SET: where all are
accepted they leave the same part but for the response, and else the first refusal is the same (R124, R125). -/
theorem scheduleEach_of_steady (members : List Byte) (hs : s.Steady) :
    (∀ t, s.scheduleMembers f k members = .ok t → (scheduleEach tag kind b k members s).2 = none ∧
        ∀ r, (scheduleEach tag kind b k members s).1.setBuffer r = t.setBuffer r) ∧
      ∀ j st, s.scheduleMembers f k members = .error (j, st) →
        (scheduleEach tag kind b k members s).2 = some (j, st.code) := by
  induction members generalizing s k with
  | nil => exact ⟨fun t h => by cases h; exact ⟨rfl, fun _ => rfl⟩, fun _ _ h => nomatch h⟩
  | cons x rest ih =>
    unfold State.scheduleMembers
    cases hx : s.scheduleMember f x with
    | error st =>
      dsimp only
      refine ⟨fun _ h => (nomatch h), fun j st' h => ?_⟩
      obtain ⟨rfl, rfl⟩ := Prod.mk.inj (Except.error.inj h)
      exact scheduleEach_cons_of_error k hf hs rest hx
    | ok u =>
      dsimp only
      obtain ⟨hok, herror⟩ := ih (k + 1) ((State.scheduleMember_change hx).frame.steady hs (responseFrame tag .ok))
      rw [State.scheduleMembers_setBuffer] at hok herror
      rw [scheduleEach_cons_of_ok k hf hs rest hx]
      refine ⟨fun t h => ?_, fun j st h => herror j st (by rw [h]; rfl)⟩
      obtain ⟨hnone, hstate⟩ := hok _ (by rw [h]; rfl)
      exact ⟨hnone, hstate⟩

end Each

/-- SCHEDULE_SET of a list that its count fits, judged as a whole (R124, R158). -/
theorem reqScheduleSet_of_whole {count kind : Byte} {b : StartBlock} {members : List Byte} (hlen : members.length = count.toNat)
    (hsize : 1 ≤ members.length ∧ members.length ≤ 8) {f : StartFields} (hf : setStartOf kind b = some f) (s : State) :
    (∀ t, s.scheduleMembers f 0 members = .ok t → reqScheduleSet count kind b members s = (t, .ok)) ∧
      ∀ k st, s.scheduleMembers f 0 members = .error (k, st) →
        reqScheduleSet count kind b members s = (s, ⟨.setFailed, [BitVec.ofNat 8 k, st.code]⟩) := by
  unfold reqScheduleSet
  rw [if_neg (not_not_intro hlen), if_neg (by omega), hf]
  dsimp only
  exact ⟨fun t h => by rw [h], fun k st h => by rw [h]⟩

/-- SCHEDULE_SET that fails its judgement as a whole is refused PARAM_RANGE (R158). -/
theorem reqScheduleSet_of_not_whole {count kind : Byte} {b : StartBlock} {members : List Byte}
    (hlen : members.length = count.toNat)
    (h : ¬ (1 ≤ members.length ∧ members.length ≤ 8 ∧ (setStartOf kind b).isSome = true)) (s : State) :
    reqScheduleSet count kind b members s = (s, .refusal .paramRange) := by
  unfold reqScheduleSet
  rw [if_neg (not_not_intro hlen)]
  by_cases hsize : count.toNat < 1 ∨ 8 < count.toNat
  · rw [if_pos hsize]
  · have hnone : setStartOf kind b = none :=
      Option.not_isSome_iff_eq_none.mp fun c => h ⟨by omega, by omega, c⟩
    rw [if_neg hsize, hnone]

/-- Settles O38: member by member the judgement is that of a SCHEDULE, and no judgement rests on the response buffer, which
alone tells the two apart. -/
theorem scheduleSetIsAllOrNone : Obligations.ScheduleSetIsAllOrNone := by
  unfold Obligations.ScheduleSetIsAllOrNone
  intro s tag kind b members hs hfit
  dsimp only
  have hlen : members.length = (BitVec.ofNat 8 members.length).toNat := by
    rw [BitVec.toNat_ofNat, Nat.mod_eq_of_lt (Nat.lt_of_le_of_lt hfit (by decide))]
  refine congrArg Host.Outcome.next ?_
  split
  · next hw =>
    obtain ⟨h1, h8, hstart⟩ := hw
    obtain ⟨f, hf⟩ := Option.isSome_iff_exists.mp ((setStartOf_isSome_iff kind b).mpr hstart)
    obtain ⟨hok, herror⟩ := reqScheduleSet_of_whole hlen ⟨h1, h8⟩ hf s
    obtain ⟨hok', herror'⟩ := scheduleEach_of_steady (tag := tag) 0 (startFieldsOf_of_setStartOf hf) members hs
    cases hm : s.scheduleMembers f 0 members with
    | ok t =>
      obtain ⟨hnone, hstate⟩ := hok' t hm
      rw [hnone]
      exact (request_answered hs (hok t hm)).trans (hstate _).symm
    | error failed =>
      obtain ⟨k, st⟩ := failed
      rw [herror' k st hm]
      exact request_answered hs (herror k st hm)
  · next hw =>
    rw [← setStartOf_isSome_iff] at hw
    exact request_answered hs (reqScheduleSet_of_not_whole hlen hw s)

end Sys2Proof.Machine
end

section
/-! SUPPORT. The law of trip sources (R127, R129, R131, R133, R135 to R137): the lanes that each source holds by its record, and
the trips of one event, which add to them what they add to the `tripped-by` sets. -/

namespace Sys2Proof.Machine

/-! ### The lanes a source holds by its record -/

/-- The lanes that a source holds by its record: those of its group while it is not QUIET (R127, R131). -/
def TripSource.heldLanes (r : TripSource) : LaneGroup := if r.state = .quiet then 0 else r.group

/-- The lanes that SOFT holds by its record (R131, R135). -/
def SoftSource.heldLanes (r : SoftSource) : LaneGroup := if r.state = .quiet then 0 else r.group

/-- The lanes that each source holds by its record. -/
def State.heldLanes (s : State) : TripId → LaneGroup
  | .a => s.tripA.heldLanes
  | .b => s.tripB.heldLanes
  | .soft => s.soft.heldLanes

/-- SOFT is never HELD, and holds no lane while it is QUIET (R129, R135, R136). -/
abbrev SoftSource.Lawful (r : SoftSource) : Prop := r.state ≠ .held ∧ (r.state = .quiet → r.group = 0)

theorem TripSource.heldLanes_iff (r : TripSource) (k : Nat) :
    r.heldLanes.getLsbD k = true ↔ r.state ≠ .quiet ∧ r.group.getLsbD k = true := by
  unfold TripSource.heldLanes
  split <;> simp [*]

theorem SoftSource.heldLanes_iff (r : SoftSource) (k : Nat) :
    r.heldLanes.getLsbD k = true ↔ r.state ≠ .quiet ∧ r.group.getLsbD k = true := by
  unfold SoftSource.heldLanes
  split <;> simp [*]

/-- The law of trip sources, source by source: each record keeps its own law, and a source is in the `tripped-by` sets of the
lanes that it holds by its record. -/
theorem State.tripsLawful_iff (s : State) : s.TripsLawful ↔ s.tripA.Lawful ∧ s.tripB.Lawful ∧ s.soft.Lawful
    ∧ ∀ (src : TripId) (l : Fin 16), (s.lane l).trippedBy.has src = (s.heldLanes src).getLsbD l.val := by
  constructor
  · rintro ⟨ha, hb, hnotHeld, hquiet, hlanes⟩
    refine ⟨ha, hb, ⟨hnotHeld, hquiet⟩, fun src l => Bool.eq_iff_iff.mpr ?_⟩
    obtain ⟨hla, hlb, hlsoft⟩ := hlanes l
    cases src
    · exact hla.trans (s.tripA.heldLanes_iff _).symm
    · exact hlb.trans (s.tripB.heldLanes_iff _).symm
    · exact hlsoft.trans (s.soft.heldLanes_iff _).symm
  · rintro ⟨ha, hb, ⟨hnotHeld, hquiet⟩, hlanes⟩
    have hiff := fun src l => Bool.eq_iff_iff.mp (hlanes src l)
    exact ⟨ha, hb, hnotHeld, hquiet, fun l => ⟨(hiff .a l).trans (s.tripA.heldLanes_iff _),
      (hiff .b l).trans (s.tripB.heldLanes_iff _), (hiff .soft l).trans (s.soft.heldLanes_iff _)⟩⟩

theorem State.TripsLawful.trip {s : State} (h : s.TripsLawful) (i : TripInput) : (s.trip i).Lawful := by
  obtain ⟨ha, hb, -⟩ := h
  cases i <;> assumption

/-- The trip sources and the `tripped-by` sets of the lanes are as they were. -/
structure State.SameTripRecords (s t : State) : Prop where
  sources : s.SameTrips t
  sets : ∀ l : Fin 16, (t.lane l).trippedBy = (s.lane l).trippedBy

/-- The law reads these records alone. -/
theorem State.TripsLawful.congr {s t : State} (h : s.TripsLawful) (hs : s.SameTripRecords t) : t.TripsLawful := by
  obtain ⟨⟨ha, hb, hsoft⟩, hsets⟩ := hs
  unfold State.TripsLawful at h ⊢
  simpa only [ha, hb, hsoft, hsets] using h

theorem State.TripsLawful.ite {c : Prop} [Decidable c] {s t : State} (hs : s.TripsLawful) (ht : t.TripsLawful) :
    (if c then s else t).TripsLawful := by
  split
  · exact hs
  · exact ht

/-! ### The trips of one event (R131, R133) -/

/-- The lanes that a list of trips adds to one source. -/
def lanesBy (trips : List Trip) (src : TripId) : LaneGroup := groupOf (trips.filter fun x => x.source = src)

theorem lanesBy_append (xs ys : List Trip) (src : TripId) : lanesBy (xs ++ ys) src = lanesBy xs src ||| lanesBy ys src := by
  rw [lanesBy, List.filter_append, groupOf_append]
  rfl

theorem lanesBy_singleton (x : Trip) (src : TripId) : lanesBy [x] src = if x.source = src then x.group else 0 := by
  unfold lanesBy
  split
  · next h => rw [List.filter_singleton, decide_eq_true h, cond_true, groupOf_singleton]
  · next h => rw [List.filter_singleton, decide_eq_false h]; rfl

theorem lanesBy_cons (x : Trip) (trips : List Trip) (src : TripId) :
    lanesBy (x :: trips) src = (if x.source = src then x.group else 0) ||| lanesBy trips src := by
  rw [← lanesBy_singleton, ← lanesBy_append]
  rfl

/-- A source that joins a set is in it, and no other source is by that. -/
theorem TrippedBy.has_add (t : TrippedBy) (joining src : TripId) :
    (t.add joining).has src = (t.has src || decide (joining = src)) := by
  cases joining <;> cases src <;> simp [TrippedBy.add, TrippedBy.has]

/-- A source is in a lane's set after a list of trips exactly where it was before, or a trip of it has the lane (R131). -/
theorem TrippedBy.has_after (t : TrippedBy) (trips : List Trip) (l : Fin 16) (src : TripId) :
    (t.after trips l).has src = (t.has src || (lanesBy trips src).getLsbD l.val) := by
  induction trips generalizing t with
  | nil => simp [TrippedBy.after, lanesBy, groupOf]
  | cons x trips ih =>
    have hbit : (if x.source = src then x.group else 0).getLsbD l.val =
        (decide (x.source = src) && x.group.getLsbD l.val) := by split <;> simp [*]
    rw [TrippedBy.after_cons, ih, lanesBy_cons, BitVec.getLsbD_or, ← Bool.or_assoc, hbit]
    cases x.group.getLsbD l.val <;> simp [TrippedBy.has_add]

/-- The trips of one event keep the law where the new records hold by themselves exactly what the trips add (R131, R133). `u` is
the lawful part `s` with the new records written. -/
theorem State.TripsLawful.takeTrips {s u : State} (h : s.TripsLawful) (hlanes : u.lanes = s.lanes) (ha : u.tripA.Lawful)
    (hb : u.tripB.Lawful) (hsoft : u.soft.Lawful) {trips : List Trip}
    (hheld : ∀ src, u.heldLanes src = s.heldLanes src ||| lanesBy trips src) : (u.takeTrips trips).TripsLawful := by
  obtain ⟨-, -, -, hs⟩ := s.tripsLawful_iff.mp h
  obtain ⟨-, ⟨hta, htb, htsoft⟩, -⟩ := u.takeTrips_outside trips
  obtain ⟨hby, -⟩ := u.takeTrips_effect trips
  refine (State.tripsLawful_iff _).mpr ⟨hta ▸ ha, htb ▸ hb, htsoft ▸ hsoft, fun src l => ?_⟩
  have hrecords : (u.takeTrips trips).heldLanes src = u.heldLanes src := by
    cases src <;> simp only [State.heldLanes, hta, htb, htsoft]
  rw [hby, TrippedBy.has_after, hrecords, hheld, BitVec.getLsbD_or, ← hs, State.lane, State.lane, hlanes]

/-! ### What the samples of an input make of its source (R128, R129) -/

/-- What samples can make of a source: nothing, another run length of an enabled one, or the change to an input state that
was not its own (R127, R128, R129). -/
inductive TripSource.Samples (r : TripSource) : TripSource → Prop
  | none : r.Samples r
  | counts (he : r.enabled = true) (n : Nat) : r.Samples { r with runLength := n }
  | changes (he : r.enabled = true) {read : InputState} (hread : read ≠ r.inputState) : r.Samples (r.changedTo read)

/-- One sample of an input (R128). -/
theorem TripSource.atEdge_samples (r : TripSource) (level : Level) : r.Samples (r.atEdge level) := by
  unfold TripSource.atEdge TripSource.sampled
  split
  · next he =>
    split
    · exact .counts he 0
    · next hread =>
      split
      · exact .changes he hread
      · exact .counts he _
  · exact .none

/-- K samples of one level (R128; log entry 6). -/
theorem TripSource.afterRun_samples (r : TripSource) (read : InputState) : r.Samples (r.afterRun read) := by
  unfold TripSource.afterRun
  split
  · next he =>
    split
    · exact .counts he 0
    · next hread => exact .changes he (Ne.symm hread)
  · exact .none

/-- Samples keep the law of their source: HELD goes with an ACTIVE input, and a disabled source takes none (R127, R129). -/
theorem TripSource.Samples.lawful {r r' : TripSource} (h : r.Samples r') (hr : r.Lawful) : r'.Lawful := by
  obtain ⟨hheld, hdisabled⟩ := hr
  cases h with
  | none => exact ⟨hheld, hdisabled⟩
  | counts he n => exact ⟨hheld, fun hn => nomatch he.symm.trans hn⟩
  | @changes he read hread =>
    cases read
    · exact ⟨iff_of_true rfl rfl, fun hn => nomatch he.symm.trans hn⟩
    · have hactive : r.inputState = .active := by
        cases hi : r.inputState
        · rfl
        · exact absurd hi.symm hread
      have hlatched : (r.changedTo .inactive).state = .latched := if_pos (hheld.mpr hactive)
      exact ⟨iff_of_false (by simp [hlatched]) nofun, fun hn => nomatch he.symm.trans hn⟩

/-- The lanes that a new record trips: its group, where the source goes from QUIET to HELD (R129). -/
def TripSource.newlyTripped (r r' : TripSource) : LaneGroup := if r.state = .quiet ∧ r'.state = .held then r'.group else 0

/-- A source holds by its new record what it held, and the lanes that the record trips (R129, R131). -/
theorem TripSource.Samples.heldLanes {r r' : TripSource} (h : r.Samples r') :
    r'.heldLanes = r.heldLanes ||| r.newlyTripped r' := by
  unfold TripSource.newlyTripped
  cases h with
  | none => rcases hs : r.state <;> simp [TripSource.heldLanes, hs]
  | counts he n => rcases hs : r.state <;> simp [TripSource.heldLanes, hs]
  | @changes he read hread => cases read <;> rcases hs : r.state <;> simp [TripSource.heldLanes, TripSource.changedTo, hs]

/-- The trip that a new record brings adds lanes to its own source alone. -/
theorem State.lanesBy_tripOf (s : State) (i : TripInput) (r : TripSource) (src : TripId) :
    lanesBy (s.tripOf i r) src = if src = tripIdOf i then (s.trip i).newlyTripped r else 0 := by
  unfold State.tripOf TripSource.newlyTripped
  split
  · rw [lanesBy_singleton]
    simp only [eq_comm]
  · simp [lanesBy, groupOf]

/-- New records of A and B that samples make, and one of SOFT, keep the law together with the trips that they bring (R129, R131,
R133, R135). `u` is the lawful part `s` with the three records written, and `soft` the trip of SOFT, where there is one. -/
theorem State.TripsLawful.takeSamples {s u : State} (h : s.TripsLawful) (hlanes : u.lanes = s.lanes)
    (ha : s.tripA.Samples u.tripA) (hb : s.tripB.Samples u.tripB) (hsoft : u.soft.Lawful) {soft : List Trip} {g : LaneGroup}
    (hg : ∀ src, lanesBy soft src = if src = .soft then g else 0) (hadds : u.soft.heldLanes = s.soft.heldLanes ||| g) :
    (u.takeTrips (s.tripOf .a u.tripA ++ s.tripOf .b u.tripB ++ soft)).TripsLawful := by
  refine h.takeTrips hlanes (ha.lawful (h.trip .a)) (hb.lawful (h.trip .b)) hsoft fun src => ?_
  simp only [lanesBy_append, State.lanesBy_tripOf, hg]
  cases src
  · simpa [State.heldLanes, tripIdOf, State.trip] using ha.heldLanes
  · simpa [State.heldLanes, tripIdOf, State.trip] using hb.heldLanes
  · simpa [State.heldLanes, tripIdOf] using hadds

/-- A new record of one source that samples make keeps the law, with the trip that it brings (R129, R131). -/
theorem State.TripsLawful.changeSource {s : State} (h : s.TripsLawful) (i : TripInput) {r : TripSource}
    (hr : (s.trip i).Samples r) : (s.changeSource i r).TripsLawful := by
  obtain ⟨-, -, hsoft, -⟩ := s.tripsLawful_iff.mp h
  refine h.takeTrips (s.setTrip_lanes i r) ?_ ?_ (by rwa [State.setTrip_soft]) fun src => ?_
  · cases i
    · exact hr.lawful (h.trip .a)
    · exact h.trip .a
  · cases i
    · exact h.trip .b
    · exact hr.lawful (h.trip .b)
  · rw [State.lanesBy_tripOf]
    cases i <;> cases src <;> simp [State.heldLanes, tripIdOf, State.setTrip]
    · exact hr.heldLanes
    · exact hr.heldLanes

end Sys2Proof.Machine
end

section
/-! SUPPORT. What keeps the law of trip sources: the events of runs, the tick event and the requests that are not of the trip unit
touch no record of it; TRIP_CONFIG, TRIP, CLEAR_TRIP and the samples of the inputs keep it (R128, R135, R136, R137). -/

namespace Sys2Proof.Machine

/-! ### What touches no record of the trip unit -/

theorem State.SameTripRecords.refl (s : State) : s.SameTripRecords s := ⟨⟨rfl, rfl, rfl⟩, fun _ => rfl⟩

theorem State.SameTripRecords.of_settings {s t : State} (ht : s.SameTrips t) (hl : s.SameLaneSettings t) :
    s.SameTripRecords t := ⟨ht, fun l => (hl l).2.2.2⟩

theorem State.SameTripRecords.of_lanes {s t : State} (ht : s.SameTrips t) (hl : t.lanes = s.lanes) : s.SameTripRecords t :=
  ⟨ht, fun l => by rw [State.lane, State.lane, hl]⟩

theorem State.RunFrame.sameTripRecords {s t : State} (h : s.RunFrame t) : s.SameTripRecords t :=
  .of_settings h.outside.2.1 h.lanes

/-- A write of a lane that keeps its sources. -/
theorem State.setLane_sameTripRecords (s : State) (l : Fin 16) {r : Lane} (hr : r.trippedBy = (s.lane l).trippedBy) :
    s.SameTripRecords (s.setLane l r) := by
  refine ⟨⟨rfl, rfl, rfl⟩, fun x => ?_⟩
  rw [s.lane_setLane]
  split
  · next hx => rw [hx, hr]
  · rfl

theorem State.takeSample_sameTripRecords (s : State) (n : Fin 8) (level : Level) :
    s.SameTripRecords (s.takeSample n level) := by
  by_cases h : (s.line n).sampleDue = true
  · have hf := s.takeSample_frame n level h
    exact .of_settings hf.outside.2.1 hf.lanes
  · rw [State.takeSample, if_neg h]
    exact .refl s

theorem State.settle_sameTripRecords (s : State) : s.SameTripRecords s.settle :=
  .of_settings s.settle_outside.2.1 (State.takeUnits_lanes tickUnits s)

/-- A tick event touches no record of the trip unit (R1, R2). -/
theorem State.tick_sameTripRecords (s : State) (levels : BitVec 8) (order : List TickUnit) :
    s.SameTripRecords (s.tick levels order) :=
  .of_settings (s.tick_outside levels order).2.1 (s.tick_lanes levels order)

theorem State.setTripPin_trip (s : State) (i j : TripInput) (level : Level) : (s.setTripPin i level).trip j = s.trip j := by
  cases i <;> rfl

theorem State.setTripPin_sameTripRecords (s : State) (i : TripInput) (level : Level) :
    s.SameTripRecords (s.setTripPin i level) := by
  cases i <;> exact .of_lanes ⟨rfl, rfl, rfl⟩ rfl

/-- SOFT_RESET keeps the trip sources and the `tripped-by` sets (R108, R138, R152). -/
theorem reqSoftReset_sameTripRecords (s : State) : s.SameTripRecords (reqSoftReset s).1 := by
  unfold reqSoftReset
  dsimp only
  obtain ⟨ls, hls⟩ := ((s.freeEntries.setDue []).setDispatch none).clearSubscriptions_eq
  refine ⟨?_, fun l => ?_⟩
  · obtain ⟨ks, hks⟩ := (((s.freeEntries.setDue []).setDispatch none).clearSubscriptions).clearClaims_eq
    rw [hks, hls]
    exact ⟨rfl, rfl, rfl⟩
  · rw [State.clearClaims_lane, hls]
    rfl

/-- The request is one of the trip unit. -/
def worksOnTrips : Instr → Bool
  | .tripConfig .. | .trip .. | .clearTrip .. => true
  | _ => false

/-- The other requests touch no record of the trip unit. -/
theorem serve_sameTripRecords {c : Instr} {s : State} {r : State × Answer} (h : serve c s = some r)
    (hc : worksOnTrips c = false) : s.SameTripRecords r.1 := by
  cases c <;> cases h
  case nop | readTime | summary => exact .refl s
  case define => exact (reqDefine_change _ _ _ _ _ _ _ _ s).frame.sameTripRecords
  case schedule => exact (reqSchedule_change _ _ _ s).frame.sameTripRecords
  case scheduleSet => exact (reqScheduleSet_change _ _ _ _ s).frame.sameTripRecords
  case amend => exact (reqAmend_change _ _ _ _ _ _ s).frame.sameTripRecords
  case drain => exact (reqDrain_change _ s).frame.sameTripRecords
  case cancel => exact (reqCancel_change _ s).frame.sameTripRecords
  case query => exact (reqQuery_change _ s).frame.sameTripRecords
  case ack => exact (reqAck_change _ s).frame.sameTripRecords
  case release => exact (reqRelease_change _ s).frame.sameTripRecords
  case setTime => unfold reqSetTime; split <;> exact .of_lanes ⟨rfl, rfl, rfl⟩ rfl
  case setDivider => unfold reqSetDivider; (repeat' split) <;> exact .of_lanes ⟨rfl, rfl, rfl⟩ rfl
  case triggerConfig => unfold reqTriggerConfig; split <;> exact .of_lanes ⟨rfl, rfl, rfl⟩ rfl
  case laneConfig =>
    unfold reqLaneConfig
    repeat' split
    · exact .refl s
    · exact s.setLane_sameTripRecords _ rfl
    · exact .refl s
  case laneSet =>
    unfold reqLaneSet
    repeat' split
    · exact .refl s
    · exact .refl s
    · exact s.setLane_sameTripRecords _ rfl
    · exact .refl s
  case laneQuery => unfold reqLaneQuery; split <;> exact .of_lanes ⟨rfl, rfl, rfl⟩ rfl
  case strobeConfig => unfold reqStrobeConfig; (repeat' split) <;> exact .of_lanes ⟨rfl, rfl, rfl⟩ rfl
  case softReset => exact reqSoftReset_sameTripRecords s
  all_goals exact Bool.noConfusion hc

/-! ### TRIP_CONFIG (R137) -/

/-- A configuration of a QUIET source leaves it QUIET and keeps its law: a filter that does not restart stays enabled (R137). -/
theorem TripSource.Lawful.configure {r : TripSource} (h : r.Lawful) (hq : r.state = .quiet) (en : Bool) (al : Level)
    (k : Nat) (g : LaneGroup) : (r.configure en al k g).Lawful ∧ (r.configure en al k g).state = .quiet := by
  have hnotHeld : ¬ r.state = .held := by simp [hq]
  unfold TripSource.configure
  dsimp only
  split
  · next hkeeps =>
    have hen : en = true := by
      simp only [TripSource.keepsFilter, Bool.and_eq_true] at hkeeps
      obtain ⟨⟨⟨-, hen⟩, -⟩, -⟩ := hkeeps
      exact hen
    exact ⟨⟨h.1, fun hdis => nomatch hen.symm.trans hdis⟩, hq⟩
  · exact ⟨⟨iff_of_false hnotHeld nofun, fun _ => ⟨hq, rfl⟩⟩, hq⟩

theorem TripSource.heldLanes_of_quiet {r : TripSource} (h : r.state = .quiet) : r.heldLanes = 0 := if_pos h

/-- A write of one source that keeps its own law and the lanes it holds keeps the law of all. -/
theorem State.TripsLawful.setTrip {s : State} (h : s.TripsLawful) (i : TripInput) {r : TripSource} (hr : r.Lawful)
    (hheld : r.heldLanes = (s.trip i).heldLanes) : (s.setTrip i r).TripsLawful := by
  obtain ⟨ha, hb, hsoft, hsets⟩ := s.tripsLawful_iff.mp h
  refine (State.tripsLawful_iff _).mpr ?_
  cases i
  · refine ⟨hr, hb, hsoft, fun src l => (hsets src l).trans (congrArg (BitVec.getLsbD · l.val) ?_)⟩
    cases src
    exacts [hheld.symm, rfl, rfl]
  · refine ⟨ha, hr, hsoft, fun src l => (hsets src l).trans (congrArg (BitVec.getLsbD · l.val) ?_)⟩
    cases src
    exacts [rfl, hheld.symm, rfl]

theorem reqTripConfig_tripsLawful {s : State} (h : s.TripsLawful) (source en al k : Byte) (g : LaneGroup) :
    (reqTripConfig source en al k g s).1.TripsLawful := by
  unfold reqTripConfig
  split
  · next i en al k _ _ _ _ =>
    split
    · exact h
    · next hq =>
      have hquiet := not_not.mp hq
      obtain ⟨hlaw, hquiet'⟩ := (h.trip i).configure hquiet en al k g
      refine h.setTrip i hlaw ?_
      rw [TripSource.heldLanes_of_quiet hquiet', TripSource.heldLanes_of_quiet hquiet]
  · exact h

/-! ### TRIP (R135) -/

/-- SOFT after a TRIP keeps its law, and holds the lanes newly in its group besides those it held (R135). -/
theorem SoftSource.Lawful.tripped {r : SoftSource} (h : r.Lawful) (g : LaneGroup) :
    (r.tripped g).Lawful ∧ (r.tripped g).heldLanes = r.heldLanes ||| r.newly g := by
  obtain ⟨heq, hnewly⟩ := SoftSource.tripped_eq h.1 g
  have hheld : r.heldLanes = if r.state = .quiet then 0 else r.group := rfl
  rw [heq, hnewly, ← hheld]
  generalize r.heldLanes = before
  refine ⟨⟨nofun, nofun⟩, (BitVec.eq_of_getLsbD_eq fun k hk => ?_ : before ||| g = before ||| (g &&& ~~~before))⟩
  rw [BitVec.getLsbD_or, BitVec.getLsbD_or, BitVec.getLsbD_and, BitVec.getLsbD_not]
  cases before.getLsbD k <;> simp [hk]

theorem lanesBy_soft (g : LaneGroup) (src : TripId) : lanesBy [⟨.soft, g⟩] src = if src = .soft then g else 0 := by
  rw [lanesBy_singleton]
  simp only [eq_comm]

theorem reqTrip_tripsLawful {s : State} (h : s.TripsLawful) (g : LaneGroup) : (reqTrip g s).1.TripsLawful := by
  unfold reqTrip
  split
  · exact h
  · obtain ⟨-, -, hsoft, -⟩ := s.tripsLawful_iff.mp h
    obtain ⟨hlaw, hheld⟩ := hsoft.tripped g
    refine h.takeTrips (u := s.setSoft (s.soft.tripped g)) rfl (h.trip .a) (h.trip .b) hlaw fun src => ?_
    rw [lanesBy_soft]
    cases src
    · exact BitVec.or_zero.symm
    · exact BitVec.or_zero.symm
    · exact hheld

/-! ### CLEAR_TRIP (R136) -/

/-- A source that leaves a set is not in it, and every other stays. -/
theorem TrippedBy.has_remove (t : TrippedBy) (leaving src : TripId) :
    (t.remove leaving).has src = (t.has src && decide (src ≠ leaving)) := by
  cases leaving <;> cases src <;> simp [TrippedBy.remove, TrippedBy.has]

/-- A LATCHED source that becomes QUIET keeps its law: its input is INACTIVE already (R136). -/
theorem TripSource.Lawful.cleared {r : TripSource} (h : r.Lawful) (hl : r.state = .latched) :
    { r with state := .quiet }.Lawful := by
  obtain ⟨hheld, hdisabled⟩ := h
  have hinactive : r.inputState ≠ .active := fun c => by simp [hheld.mpr c] at hl
  exact ⟨iff_of_false nofun hinactive, fun hdis => ⟨rfl, (hdisabled hdis).2⟩⟩

/-- A source that lets its lanes go leaves their `tripped-by` sets (R136). `u` is the lawful part `s` with the record of the
source `src` written, and `t` what the clear leaves. -/
theorem State.TripsLawful.releaseTrip {s u t : State} {src : TripId} (h : s.TripsLawful) (ht : t = u.releaseTrip src)
    (hlanes : u.lanes = s.lanes) (ha : u.tripA.Lawful) (hb : u.tripB.Lawful) (hsoft : u.soft.Lawful)
    (hheld : ∀ other, u.heldLanes other = if other = src then 0 else s.heldLanes other) : t.TripsLawful := by
  obtain ⟨-, -, -, hsets⟩ := s.tripsLawful_iff.mp h
  have hlane : ∀ l, t.lane l = { s.lane l with trippedBy := (s.lane l).trippedBy.remove src } := fun l => by
    rw [ht, u.releaseTrip_lane, State.lane, State.lane, hlanes]
  obtain ⟨hta, htb, htsoft⟩ : u.SameTrips t := by
    obtain ⟨ls, hls⟩ := u.releaseTrip_eq src
    rw [ht, hls]
    exact ⟨rfl, rfl, rfl⟩
  have hrecords : ∀ other, t.heldLanes other = u.heldLanes other := fun other => by
    cases other <;> simp only [State.heldLanes, hta, htb, htsoft]
  refine (State.tripsLawful_iff _).mpr ⟨by rwa [hta], by rwa [htb], by rwa [htsoft], fun other l => ?_⟩
  rw [hlane, TrippedBy.has_remove, hrecords, hheld, hsets]
  by_cases ho : other = src <;> simp [ho]

/-- A LATCHED source lets the lanes of its group go, and no other source any (R136). -/
theorem State.TripsLawful.clearSource {s : State} (h : s.TripsLawful) {src : TripId} (hl : s.tripState src = .latched) :
    (s.clearSource src).TripsLawful := by
  obtain ⟨ha, hb, hsoft, -⟩ := s.tripsLawful_iff.mp h
  cases src
  · exact h.releaseTrip (u := s.setTrip .a { s.tripA with state := .quiet }) rfl rfl (ha.cleared hl) hb hsoft
      fun other => by cases other <;> rfl
  · exact h.releaseTrip (u := s.setTrip .b { s.tripB with state := .quiet }) rfl rfl ha (hb.cleared hl) hsoft
      fun other => by cases other <;> rfl
  · exact h.releaseTrip (u := s.setSoft { group := 0, state := .quiet }) rfl rfl ha hb ⟨nofun, fun _ => rfl⟩
      fun other => by cases other <;> rfl

theorem reqClearTrip_tripsLawful {s : State} (h : s.TripsLawful) (source : Byte) :
    (reqClearTrip source s).1.TripsLawful := by
  unfold reqClearTrip
  repeat' split
  · exact h
  · next hl =>
    dsimp only
    exact h.clearSource hl
  · exact h
  · exact h

/-- Every owner of a request keeps the law of trip sources. -/
theorem serve_tripsLawful {c : Instr} {s : State} {r : State × Answer} (hr : serve c s = some r) (h : s.TripsLawful) :
    r.1.TripsLawful := by
  have hrest : worksOnTrips c = false → r.1.TripsLawful := fun hc => h.congr (serve_sameTripRecords hr hc)
  cases c <;> cases hr
  case tripConfig => exact reqTripConfig_tripsLawful h _ _ _ _ _
  case trip => exact reqTrip_tripsLawful h _
  case clearTrip => exact reqClearTrip_tripsLawful h _
  all_goals exact hrest rfl

end Sys2Proof.Machine
end

section
/-! CERTIFICATE. Every command and every CLK edge keeps the law of trip sources (R127, R129, R131, R133, R135 to R137). -/

namespace Sys2Proof.Machine

/-- A source takes the sample of an edge, or none (R128, R137). -/
theorem State.sourceAtEdge_samples (s : State) (restarted : List TripInput) (i : TripInput) :
    (s.trip i).Samples (s.sourceAtEdge restarted i) := by
  unfold State.sourceAtEdge
  split
  · exact .none
  · exact TripSource.atEdge_samples _ _

namespace State.TripsLawful

variable {s : State}

/-! ### The parts of a tick event (R2) -/

theorem actionOne (h : s.TripsLawful) : s.actionOne.TripsLawful := by
  have hd : (s.setDispatch s.actionOne.dispatch).TripsLawful := h
  exact hd.congr s.actionOne_frame.sameTripRecords

theorem setTrg (h : s.TripsLawful) (n : Fin 8) (level : Level) : (s.setTrg n level).TripsLawful := h

theorem takeSample (h : s.TripsLawful) (n : Fin 8) (level : Level) : (s.takeSample n level).TripsLawful :=
  h.congr (s.takeSample_sameTripRecords n level)

/-! ### The events of the inputs (R128, R129) -/

theorem settle (h : s.TripsLawful) : s.settle.TripsLawful := h.congr s.settle_sameTripRecords

theorem setTripPin (h : s.TripsLawful) (i : TripInput) (level : Level) : (s.setTripPin i level).TripsLawful :=
  h.congr (s.setTripPin_sameTripRecords i level)

theorem sampleTripPin (h : s.TripsLawful) (i : TripInput) (level : Level) : (s.sampleTripPin i level).TripsLawful :=
  (h.setTripPin i level).changeSource i (by rw [s.setTripPin_trip]; exact (s.trip i).atEdge_samples level)

theorem tripReads (h : s.TripsLawful) (i : TripInput) (read : InputState) : (s.tripReads i read).TripsLawful :=
  .ite ((h.settle.setTripPin i _).changeSource i (TripSource.afterRun_samples _ read)) h

/-! ### Executions (R146) -/

theorem serveSettled (h : s.TripsLawful) (c : Instr) : (s.serveSettled c).1.TripsLawful := by
  unfold State.serveSettled
  cases hs : serve c s.settle with
  | none => exact h
  | some r => exact serve_tripsLawful hs h.settle

theorem endExecution (h : s.TripsLawful) : s.endExecution.TripsLawful := by
  unfold State.endExecution
  split
  · exact h.serveSettled _
  · exact h
  · exact h
  · exact h

/-- A request keeps the law of trip sources, at its take point and as a whole execution (R146). -/
theorem request (h : s.TripsLawful) {c : Instr} {own : State → State × Answer} (hc : ∀ s, serve c s = some (own s)) :
    (s.request c own).TripsLawful :=
  .ite h (.ite (serve_tripsLawful (hc _) h.settle) (serve_tripsLawful (hc _) h.endExecution.settle))

/-! ### The CLK edge -/

theorem clkTimebase (h : s.TripsLawful) (order : List TickUnit) : (s.clkTimebase order).TripsLawful :=
  .ite (h.congr (s.tick_sameTripRecords _ _)) h

theorem clkTrips (h : s.TripsLawful) (restarted : List TripInput) : (s.clkTrips restarted).TripsLawful := by
  obtain ⟨-, -, hsoft, -⟩ := s.tripsLawful_iff.mp h
  unfold State.clkTrips
  dsimp only
  have ha := s.sourceAtEdge_samples restarted .a
  have hb := s.sourceAtEdge_samples restarted .b
  generalize s.sourceAtEdge restarted .a = a, s.sourceAtEdge restarted .b = b at *
  split
  · have hn := h.takeSamples (u := (s.setTrip .a a).setTrip .b b) rfl ha hb hsoft (soft := []) (g := 0)
      (fun src => by simp [lanesBy, groupOf]) BitVec.or_zero.symm
    rwa [List.append_nil] at hn
  · next tag g _ =>
    obtain ⟨hlaw, hheld⟩ := hsoft.tripped g
    exact h.takeSamples (u := ((s.setTrip .a a).setTrip .b b).setSoft (s.soft.tripped g)) rfl ha hb hlaw
      (lanesBy_soft _) hheld

theorem clkExecution (h : s.TripsLawful) : s.clkExecution.TripsLawful := by
  unfold State.clkExecution
  split
  · exact .ite h.endExecution h
  · exact h
  · exact h

theorem clkUnit (h : s.TripsLawful) (order : List TickUnit) (restarted : List TripInput) (u : Config.EdgeUnit) :
    (s.clkUnit order restarted u).TripsLawful := by
  cases u with
  | timebase => exact h.clkTimebase order
  | tripSamples => exact h.clkTrips restarted
  | execution => exact .ite (h.clkTrips restarted) h.clkExecution

end State.TripsLawful

theorem EdgeWork.take_tripsLawful (w : EdgeWork) (tickOrder : List TickUnit) (h : w.state.TripsLawful)
    (u : Config.EdgeUnit) : (w.take tickOrder u).state.TripsLawful := by
  unfold EdgeWork.take
  split
  · exact h
  · exact h.clkUnit tickOrder w.restarted u

theorem State.TripsLawful.clkPartsIn {s : State} (h : s.TripsLawful) (order : List Config.EdgeUnit)
    (tickOrder : List TickUnit) : (s.clkPartsIn order tickOrder).TripsLawful := by
  have hw := List.foldlRecOn (motive := fun w : EdgeWork => w.state.TripsLawful) order (EdgeWork.take tickOrder)
    (b := { state := s, overtaken := [], restarted := [] }) h fun w hw u _ => w.take_tripsLawful tickOrder hw u
  exact .ite hw hw

/-- A CLK edge keeps the law of trip sources, in every order of its parts (log entry 4). -/
theorem State.TripsLawful.clkEdge {s : State} (h : s.TripsLawful) : s.clkEdge.TripsLawful := by
  have hp : s.settle.clkParts.TripsLawful := by
    unfold State.clkParts
    exact h.settle.clkPartsIn _ _
  exact .ite h hp

/-! ### The commands -/

/-- A reset leaves every source QUIET and every set empty (R108, R138). -/
theorem State.blocksReset_tripsLawful (s : State) (pins : Pins) (transaction : Transaction) :
    (s.blocksReset pins transaction).TripsLawful := State.reset_tripsLawful

/-- Every command answers a next state that keeps the law of trip sources. -/
theorem exec_tripsLawful {s : State} (h : s.TripsLawful) (c : Instr) : ∃ t, exec c s = .next t ∧ t.TripsLawful := by
  rcases hr : isRequest c with _ | _
  · cases c
    case powerOn | resetNAssert => exact ⟨_, rfl, s.blocksReset_tripsLawful _ _⟩
    case resetNRelease => exact ⟨_, rfl, .ite (s.blocksReset_tripsLawful _ _) h⟩
    case tickEvent levels order => exact ⟨_, rfl, .ite h (h.congr (s.tick_sameTripRecords levels order))⟩
    case overrun => exact ⟨_, rfl, .ite h (.ite (h.congr s.overrunOne_frame.sameTripRecords) h)⟩
    case action => exact ⟨_, rfl, .ite h h.actionOne⟩
    case strobePulseEnd k => exact ⟨_, rfl, .ite h (.ite (h.congr (s.countdown_frame k).sameTripRecords) h)⟩
    case triggerSample n level =>
      exact ⟨_, rfl, .ite h (.ite ((h.setTrg n level).takeSample n level) h)⟩
    case qualifiedEdge n =>
      refine ⟨_, rfl, .ite h ?_⟩
      dsimp only
      split
      · exact .ite ((h.setTrg n _).takeSample n _) h
      · exact h
    case tripInputActive i | tripInputInactive i => exact ⟨_, rfl, .ite h (h.tripReads i _)⟩
    case tripFilterSample i level => exact ⟨_, rfl, .ite h (h.settle.sampleTripPin i level)⟩
    case csNFall => exact ⟨_, rfl, .ite h (.ite h h)⟩
    case csNRise | byteReceived => exact ⟨_, rfl, .ite h h⟩
    case executionEnd => exact ⟨_, rfl, .ite h h.endExecution⟩
    all_goals exact Bool.noConfusion hr
  · obtain ⟨own, hs, he⟩ := exec_of_isRequest hr
    exact ⟨_, he s, h.request hs⟩

/-- Settles O56: a step is a command or a CLK edge, and each new record that they write of a source comes with the trip, or the
clear, of the lanes by which what it holds changes. -/
theorem everyStepKeepsTheTripLaw : Obligations.EveryStepKeepsTheTripLaw := by
  unfold Obligations.EveryStepKeepsTheTripLaw
  intro s t h hst
  unfold step at hst
  split at hst
  · next c rest _ =>
    obtain ⟨u, hu, hl⟩ := exec_tripsLawful (s := s.withPending rest) h c
    rwa [← Host.Outcome.next.inj (hu.symm.trans hst)]
  · rw [← Host.Outcome.next.inj hst]
    exact h.clkEdge

end Sys2Proof.Machine
end

section
/-! SUPPORT. One trip on its own (R131, R132), and the samples of one input: the equations of a sample, what the change of a source
leaves, and that it leaves a steady part steady. -/

namespace Sys2Proof.Machine

/-! ### One trip (R131, R132) -/

/-- The trip of a group by one source, on a part `u` whose runs, timebase and strobe lines are those of `s`. -/
theorem State.tripGroup_tripped {s u : State} (hu : s.SameRuns u) (htime : s.SameTimebase u) (hk : u.strobes = s.strobes)
    (src : TripId) (g : LaneGroup) : s.Tripped (u.tripGroup src g) src g := by
  have heffect := u.takeTrips_effect [⟨src, g⟩]
  have hlane : ∀ l, u.lane l = s.lane l := fun l => by rw [State.lane, State.lane, hu.lanes]
  simp only [TrippedBy.after_singleton, groupOf_singleton, hlane] at heffect
  obtain ⟨⟨h1, h2, h3, h4⟩, -⟩ := u.takeTrips_outside [⟨src, g⟩]
  obtain ⟨k1, k2, k3, k4⟩ := htime
  refine ⟨State.TripEffect.congr heffect ⟨hu.now.symm, hu.entries.symm, hu.due.symm, hu.lines.symm, hu.lanes.symm⟩ (.refl _),
    ⟨h1.trans k1, h2.trans k2, h3.trans k3, h4.trans k4⟩, fun n => ?_, (u.takeTrips_strobes _).trans hk⟩
  have hfilter := (u.takeTrips_frame [⟨src, g⟩]).filters n
  obtain ⟨ls, hls⟩ := State.laneSteps_eq [⟨src, g⟩] u
  rw [hls] at hfilter
  have hline : s.line n = u.line n := by rw [State.line, State.line, hu.lines]
  rw [hline]
  exact hfilter

/-- The trip of no lane changes nothing (R135). -/
theorem State.tripGroup_zero (s : State) (src : TripId) : s.tripGroup src 0 = s := by
  have hlanes : lanesOf 0 = [] := List.filter_eq_nil_iff.mpr fun l _ => by simp
  have hrecorded : (List.finRange 64).filter (s.recordedBy [⟨src, 0⟩]) = [] :=
    List.filter_eq_nil_iff.mpr fun e _ => by
      rw [State.recordedBy, List.any_cons, State.recorded, hlanes]
      exact Bool.false_ne_true
  rw [State.tripGroup, State.takeTrips, hrecorded, List.foldl_cons, State.laneStep, hlanes]
  rfl

/-! ### The equations of a sample (R127, R128) -/

section Sample

variable {r : TripSource} {level : Level}

theorem TripSource.atEdge_of_disabled (h : r.enabled = false) (level : Level) : r.atEdge level = r := by
  simp [TripSource.atEdge, h]

/-- A sample that agrees with the input state ends the run. -/
theorem TripSource.atEdge_of_agrees (he : r.enabled = true) (hread : r.reads level = r.inputState) :
    r.atEdge level = { r with runLength := 0 } := by
  rw [TripSource.atEdge, if_pos he, TripSource.sampled, if_pos hread]

/-- A differing sample before the K-th lengthens the run. -/
theorem TripSource.atEdge_of_counts (he : r.enabled = true) (hread : r.reads level ≠ r.inputState)
    (hfew : r.runLength + 1 < r.depth) : r.atEdge level = { r with runLength := r.runLength + 1 } := by
  rw [TripSource.atEdge, if_pos he, TripSource.sampled, if_neg hread, if_neg (Nat.not_le.mpr hfew)]

/-- The K-th differing sample changes the input state. -/
theorem TripSource.atEdge_of_changes (he : r.enabled = true) (hread : r.reads level ≠ r.inputState)
    (hlast : r.depth ≤ r.runLength + 1) : r.atEdge level = r.changedTo (r.reads level) := by
  rw [TripSource.atEdge, if_pos he, TripSource.sampled, if_neg hread, if_pos hlast]

/-- A change of input state does not rest on the run that brought it. -/
theorem TripSource.changedTo_of_run (r : TripSource) (n : Nat) (read : InputState) :
    { r with runLength := n }.changedTo read = r.changedTo read := by
  cases read <;> rfl

/-- More samples of the level that brought a change leave the source as it is. -/
theorem TripSource.atEdge_changedTo (he : r.enabled = true) (level : Level) :
    (r.changedTo (r.reads level)).atEdge level = r.changedTo (r.reads level) := by
  have hagrees : (r.changedTo (r.reads level)).reads level = (r.changedTo (r.reads level)).inputState := by
    cases hread : r.reads level <;> exact hread
  have hen : (r.changedTo (r.reads level)).enabled = true := by cases r.reads level <;> exact he
  rw [TripSource.atEdge_of_agrees hen hagrees]
  cases r.reads level <;> rfl

/-- A source reads the level that stands for an input state as that state (R127). -/
theorem TripSource.reads_levelFor (r : TripSource) (read : InputState) : r.reads (r.levelFor read) = read := by
  cases read
  · exact if_pos rfl
  · refine if_neg ?_
    change otherLevel r.activeLevel ≠ r.activeLevel
    cases r.activeLevel <;> decide

end Sample

/-! ### What the change of a source leaves -/

theorem TripState.not_quiet_and_held (st : TripState) : ¬ (st = .quiet ∧ st = .held) := by cases st <;> decide

theorem State.setTrip_trip_self (s : State) (i : TripInput) : s.setTrip i (s.trip i) = s := by cases i <;> rfl

theorem State.setTrip_setTrip (s : State) (i : TripInput) (r r' : TripSource) :
    (s.setTrip i r).setTrip i r' = s.setTrip i r' := by cases i <;> rfl

theorem State.tripPin_of_pins {s t : State} {i : TripInput} {level : Level} (h : t.pins = (s.setTripPin i level).pins) :
    t.tripPin i = level := by
  cases i <;> rw [State.tripPin, h] <;> rfl

/-- A pin that shows a level already. -/
theorem State.setTripPin_of_shown {s : State} {i : TripInput} {level : Level} (h : s.tripPin i = level) :
    s.setTripPin i level = s := by
  subst h
  cases i <;> rfl

/-- The change of a source writes its record, and of the pins, SOFT and the link nothing (R129, R131, R132). -/
theorem State.changeSource_records (s : State) (i : TripInput) (r : TripSource) :
    (s.changeSource i r).trip i = r ∧ (s.changeSource i r).pins = s.pins ∧ (s.changeSource i r).soft = s.soft ∧
      (s.changeSource i r).link = s.link := by
  obtain ⟨-, ⟨ha, hb, hsoft⟩, hpins, hlink, -⟩ := (s.setTrip i r).takeTrips_outside (s.tripOf i r)
  cases i
  · exact ⟨ha, hpins, hsoft, hlink⟩
  · exact ⟨hb, hpins, hsoft, hlink⟩

/-- A record of the same state in between makes no difference to the change that follows. -/
theorem State.changeSource_setTrip {s : State} {i : TripInput} {r : TripSource} (h : r.state = (s.trip i).state)
    (r' : TripSource) : (s.setTrip i r).changeSource i r' = s.changeSource i r' := by
  rw [State.changeSource, State.changeSource, State.setTrip_setTrip, State.tripOf, State.tripOf, State.trip_setTrip_self, h]

/-- A QUIET source that becomes HELD trips its group; the level of its pin has no part in it (R129, R131, R132). -/
theorem State.changeSource_tripped {s : State} {i : TripInput} {r : TripSource} (level : Level)
    (hq : (s.trip i).state = .quiet) (hh : r.state = .held) :
    s.Tripped ((s.setTripPin i level).changeSource i r) (tripIdOf i) r.group := by
  rw [State.changeSource_trips _ _ _ (by rwa [State.setTripPin_trip]) hh]
  refine State.tripGroup_tripped ?_ ?_ ?_ _ _ <;> cases i
  · exact ⟨rfl, rfl, rfl, rfl, rfl⟩
  · exact ⟨rfl, rfl, rfl, rfl, rfl⟩
  · exact ⟨rfl, rfl, rfl, rfl⟩
  · exact ⟨rfl, rfl, rfl, rfl⟩
  · rfl
  · rfl

/-! ### A steady part stays steady -/

/-- Trips make no part of a tick event owed, and touch neither the pins nor the link (R131, R132). -/
theorem State.Steady.takeTrips {s : State} (h : s.Steady) (trips : List Trip) : (s.takeTrips trips).Steady := by
  obtain ⟨hr, ht, hb⟩ := h
  obtain ⟨-, -, hpins, hlink, -⟩ := s.takeTrips_outside trips
  obtain ⟨ls, hls⟩ := State.laneSteps_eq trips s
  have hframe := s.takeTrips_frame trips
  rw [hls] at hframe
  refine ⟨?_, (State.tickWhole_iff _).mpr fun u hu => hframe.notOwed (u := u) ?_, ?_⟩
  · rwa [State.inReset, hpins]
  · have hn := s.tickWhole_iff.mp ht u hu
    cases u <;> exact hn
  · rwa [hlink]

theorem State.Steady.setTripPin {s : State} (h : s.Steady) (i : TripInput) (level : Level) :
    (s.setTripPin i level).Steady := by cases i <;> exact h

theorem State.Steady.setTrip {s : State} (h : s.Steady) (i : TripInput) (r : TripSource) : (s.setTrip i r).Steady := by
  cases i <;> exact h

theorem State.Steady.changeSource {s : State} (h : s.Steady) (i : TripInput) (r : TripSource) :
    (s.changeSource i r).Steady := (h.setTrip i r).takeTrips _

end Sys2Proof.Machine
end

section
/-! CERTIFICATE. The samples of a trip input and the changes of input state (R127, R128, R129, R131, R132): one sample, the events
that stand for K samples, and that K samples are such an event (log entry 6). -/

namespace Sys2Proof.Machine

/-! ### One sample on a steady part -/

section Steady

variable {s : State} {i : TripInput}

/-- On a steady part TRIP_FILTER_SAMPLE is one sample of the source (R128). -/
theorem State.Steady.exec_tripFilterSample (h : s.Steady) (i : TripInput) (level : Level) :
    exec (.tripFilterSample i level) s = .next (s.sampleTripPin i level) := by
  obtain ⟨hr, ht, -⟩ := h
  refine congrArg Host.Outcome.next ?_
  rw [State.whenRunning_of_running hr, State.settle_of_tickWhole ht]

/-- A sample that makes no QUIET source HELD writes the pin and the record alone (R128, R129). -/
theorem State.sampleTripPin_of_no_trip {r : TripSource} {level : Level} (hr : (s.trip i).atEdge level = r)
    (h : ¬ ((s.trip i).state = .quiet ∧ r.state = .held)) :
    s.sampleTripPin i level = (s.setTripPin i level).setTrip i r := by
  rw [State.sampleTripPin, hr, State.changeSource_eq]
  rwa [State.setTripPin_trip]

/-- A sample that leaves the state of its source brings no trip (R129). -/
theorem State.sampleTripPin_of_same_state {r : TripSource} {level : Level} (hr : (s.trip i).atEdge level = r)
    (hstate : r.state = (s.trip i).state) : s.sampleTripPin i level = (s.setTripPin i level).setTrip i r :=
  State.sampleTripPin_of_no_trip hr (by rw [hstate]; exact TripState.not_quiet_and_held _)

end Steady

/-- Settles O20: the branches of a sample, of which the K-th ACTIVE one of a QUIET source is a trip. -/
theorem tripFilterSampleFilters : Obligations.TripFilterSampleFilters := by
  unfold Obligations.TripFilterSampleFilters
  intro s i v hs u r read
  refine ⟨_, hs.exec_tripFilterSample i v, fun hd => ?_, fun he hread => ?_, fun he hread hfew => ?_,
    fun he hread hlast => ?_⟩
  · rw [State.sampleTripPin_of_same_state (TripSource.atEdge_of_disabled hd v) rfl]
    have hr : r = u.trip i := (s.setTripPin_trip i i v).symm
    rw [hr]
    exact u.setTrip_trip_self i
  · exact State.sampleTripPin_of_same_state (TripSource.atEdge_of_agrees he hread) rfl
  · exact State.sampleTripPin_of_same_state (TripSource.atEdge_of_counts he hread hfew) rfl
  · have hedge := TripSource.atEdge_of_changes he hread hlast
    refine ⟨fun hinactive => ?_, fun hactive => ?_⟩
    · have hchange : r.atEdge v = r.changedTo .inactive := hedge.trans (congrArg r.changedTo hinactive)
      refine State.sampleTripPin_of_no_trip hchange fun ⟨hq, hh⟩ => ?_
      have hq' : r.state = .quiet := hq
      simp [hq'] at hh
    · have hchange : r.atEdge v = r.changedTo .active := hedge.trans (congrArg r.changedTo hactive)
      have hsample : s.sampleTripPin i v = u.changeSource i (r.changedTo .active) :=
        congrArg (u.changeSource i) hchange
      refine ⟨by rw [hsample, (u.changeSource_records i _).1]; rfl, ?_⟩
      split
      · next hq =>
        rw [hsample]
        exact State.changeSource_tripped (r := r.changedTo .active) v hq rfl
      · next hq => exact State.sampleTripPin_of_no_trip hchange fun c => hq c.1

/-! ### The events of an input (R129; log entry 6) -/

section Events

variable {s : State} {i : TripInput} (h : s.Steady) (he : (s.trip i).enabled = true)
include h he

/-- On a steady part the event of an enabled source sets its pin, and changes the source as K samples do. -/
theorem State.Steady.whenRunning_tripReads (read : InputState) :
    s.whenRunning (fun s => s.tripReads i read) =
      (s.setTripPin i ((s.trip i).levelFor read)).changeSource i ((s.trip i).afterRun read) := by
  obtain ⟨hr, ht, -⟩ := h
  rw [State.whenRunning_of_running hr, State.tripReads, if_pos he, State.settle_of_tickWhole ht, State.tripRun,
    State.setTripPin_trip]

/-- An event of the input state that the source has already ends its run. -/
theorem State.Steady.tripReads_of_agrees {read : InputState} (hread : (s.trip i).inputState = read) :
    s.whenRunning (fun s => s.tripReads i read) =
      (s.setTripPin i ((s.trip i).levelFor read)).setTrip i { s.trip i with runLength := 0 } := by
  rw [h.whenRunning_tripReads he, TripSource.afterRun, if_pos he, if_pos hread, State.changeSource_eq]
  rw [State.setTripPin_trip]
  exact TripState.not_quiet_and_held _

/-- An event of the other input state changes the source (R129). -/
theorem State.Steady.tripReads_of_changes {read : InputState} (hread : (s.trip i).inputState ≠ read) :
    s.whenRunning (fun s => s.tripReads i read) =
      (s.setTripPin i ((s.trip i).levelFor read)).changeSource i ((s.trip i).changedTo read) := by
  rw [h.whenRunning_tripReads he, TripSource.afterRun, if_pos he, if_neg hread]

/-- A change that makes no QUIET source HELD writes the pin and the record alone (R129). -/
theorem State.Steady.tripReads_of_no_trip {read : InputState} (hread : (s.trip i).inputState ≠ read)
    (hno : ¬ ((s.trip i).state = .quiet ∧ ((s.trip i).changedTo read).state = .held)) :
    s.whenRunning (fun s => s.tripReads i read) =
      (s.setTripPin i ((s.trip i).levelFor read)).setTrip i ((s.trip i).changedTo read) := by
  rw [h.tripReads_of_changes he hread, State.changeSource_eq]
  rwa [State.setTripPin_trip]

end Events

/-- Settles O21: each event is the change that its samples bring, or the end of a run. -/
theorem tripInputChangesTheState : Obligations.TripInputChangesTheState := by
  unfold Obligations.TripInputChangesTheState
  intro s i hs he r active inactive
  refine ⟨fun hi hq => ?_, fun hi hl => ?_, fun hi => ⟨?_, ?_⟩, fun hi => ?_⟩
  · have hi' : r.inputState ≠ .active := by simp [hi]
    obtain ⟨htrip, hpins, hsoft, hlink⟩ := active.changeSource_records i (r.changedTo .active)
    refine ⟨active.changeSource i (r.changedTo .active), congrArg Host.Outcome.next (hs.tripReads_of_changes he hi'),
      State.changeSource_tripped (r := r.changedTo .active) _ hq rfl, htrip, hlink.trans ?_, hpins, hsoft.trans ?_⟩
    · cases i <;> rfl
    · cases i <;> rfl
  · have hi' : r.inputState ≠ .active := by simp [hi]
    have hl' : (s.trip i).state = .latched := hl
    exact congrArg Host.Outcome.next (hs.tripReads_of_no_trip he hi' (by simp [hl']))
  · exact congrArg Host.Outcome.next (hs.tripReads_of_agrees he hi)
  · have hi' : r.inputState ≠ .inactive := by simp [hi]
    refine congrArg Host.Outcome.next (hs.tripReads_of_no_trip he hi' fun ⟨hq, hh⟩ => ?_)
    simp [TripSource.changedTo, hq] at hh
  · exact congrArg Host.Outcome.next (hs.tripReads_of_agrees he hi)

/-! ### K samples of one level (R128; log entry 6) -/

theorem execAll_cons_of_next {c : Instr} {s t : State} (h : exec c s = .next t) (rest : List Instr) :
    execAll (c :: rest) s = execAll rest t := by
  rw [execAll, h]

section Run

variable {i : TripInput} {level : Level}

/-- Samples change nothing where the pin shows their level and a sample of it leaves the source as it is. -/
theorem execAll_samples_of_settled {s : State} (h : s.Steady) (hpin : s.tripPin i = level)
    (hr : (s.trip i).atEdge level = s.trip i) (n : Nat) :
    execAll (List.replicate n (.tripFilterSample i level)) s = .next s := by
  have hsample : s.sampleTripPin i level = s := by
    rw [State.sampleTripPin_of_same_state hr rfl, State.setTripPin_of_shown hpin, State.setTrip_trip_self]
  induction n with
  | zero => rfl
  | succ n ih =>
    rw [List.replicate_succ, execAll_cons_of_next ((h.exec_tripFilterSample i level).trans (congrArg _ hsample)), ih]

/-- One sample or more of the input state that a source has ends its run. -/
theorem execAll_samples_of_agrees {s : State} (h : s.Steady) (he : (s.trip i).enabled = true)
    (hread : (s.trip i).reads level = (s.trip i).inputState) (n : Nat) :
    execAll (List.replicate (n + 1) (.tripFilterSample i level)) s =
      .next ((s.setTripPin i level).setTrip i { s.trip i with runLength := 0 }) := by
  rw [List.replicate_succ, execAll_cons_of_next (h.exec_tripFilterSample i level),
    State.sampleTripPin_of_same_state (TripSource.atEdge_of_agrees he hread) rfl]
  refine execAll_samples_of_settled ((h.setTripPin i level).setTrip i _) ?_ ?_ n
  · exact State.tripPin_of_pins ((s.setTripPin i level).setTrip_pins i _)
  · rw [State.trip_setTrip_self]
    exact TripSource.atEdge_of_agrees (r := { s.trip i with runLength := 0 }) he hread

/-- Samples of the other input state change the source when `missing` samples after the first complete its run; those that follow
change nothing. -/
theorem execAll_samples_of_changes (missing : Nat) {s : State} (h : s.Steady) (he : (s.trip i).enabled = true)
    (hread : (s.trip i).reads level ≠ (s.trip i).inputState)
    (hdepth : (s.trip i).depth = (s.trip i).runLength + 1 + missing) (more : Nat) :
    execAll (List.replicate (missing + 1 + more) (.tripFilterSample i level)) s =
      .next ((s.setTripPin i level).changeSource i ((s.trip i).changedTo ((s.trip i).reads level))) := by
  induction missing generalizing s with
  | zero =>
    rw [Nat.zero_add, Nat.add_comm, List.replicate_succ, execAll_cons_of_next (h.exec_tripFilterSample i level),
      State.sampleTripPin, TripSource.atEdge_of_changes he hread (by omega)]
    obtain ⟨htrip, hpins, -⟩ :=
      (s.setTripPin i level).changeSource_records i ((s.trip i).changedTo ((s.trip i).reads level))
    refine execAll_samples_of_settled ((h.setTripPin i level).changeSource i _) (State.tripPin_of_pins hpins) ?_ more
    rw [htrip, TripSource.atEdge_changedTo he]
  | succ missing ih =>
    have hcount := TripSource.atEdge_of_counts he hread (by omega)
    rw [Nat.add_right_comm, List.replicate_succ, execAll_cons_of_next (h.exec_tripFilterSample i level),
      State.sampleTripPin_of_same_state hcount rfl]
    generalize hu : (s.setTripPin i level).setTrip i { s.trip i with runLength := (s.trip i).runLength + 1 } = u
    have htrip : u.trip i = { s.trip i with runLength := (s.trip i).runLength + 1 } := by
      rw [← hu, State.trip_setTrip_self]
    have hpins : u.pins = (s.setTripPin i level).pins := by rw [← hu, State.setTrip_pins]
    have hsteady : u.Steady := hu ▸ (h.setTripPin i level).setTrip i _
    rw [ih hsteady (by rw [htrip]; exact he) (by rw [htrip]; exact hread) (by rw [htrip]; dsimp only; omega),
      State.setTripPin_of_shown (State.tripPin_of_pins hpins), htrip, TripSource.changedTo_of_run, ← hu,
      State.changeSource_setTrip (by rw [State.setTripPin_trip])]
    rfl

end Run

/-- K samples of one level are the event of the input state that an enabled source reads in it (R128; log entry 6). -/
theorem execAll_samples_of_read {s : State} {i : TripInput} (h : s.Steady) (he : (s.trip i).enabled = true)
    (hrun : (s.trip i).runLength < (s.trip i).depth) (read : InputState) :
    execAll (List.replicate (s.trip i).depth (.tripFilterSample i ((s.trip i).levelFor read))) s =
      .next (s.whenRunning fun s => s.tripReads i read) := by
  have hreads := (s.trip i).reads_levelFor read
  by_cases hread : (s.trip i).inputState = read
  · obtain ⟨n, hn⟩ := Nat.exists_eq_add_one_of_ne_zero (Nat.ne_of_gt (Nat.zero_lt_of_lt hrun))
    rw [hn, execAll_samples_of_agrees h he (hreads.trans hread.symm), h.tripReads_of_agrees he hread]
  · obtain ⟨missing, hdepth⟩ := Nat.exists_eq_add_of_le hrun
    have hlen : (s.trip i).depth = missing + 1 + (s.trip i).runLength := by omega
    rw [h.tripReads_of_changes he hread]
    conv_lhs => rw [hlen]
    rw [execAll_samples_of_changes missing h he (by rw [hreads]; exact Ne.symm hread) hdepth, hreads]

/-- Settles O22: the two events, by the one lemma about K samples of a level. -/
theorem tripRunIsKSamples : Obligations.TripRunIsKSamples := by
  unfold Obligations.TripRunIsKSamples
  intro s i h he hrun
  exact ⟨execAll_samples_of_read h he hrun .active, execAll_samples_of_read h he hrun .inactive⟩

end Sys2Proof.Machine
end

section
/-! CERTIFICATE. TRIP: SOFT is LATCHED, and the lanes newly in its group are tripped (R131, R132, R135). -/

namespace Sys2Proof.Machine

/-- An accepted TRIP (R135, R164). -/
theorem reqTrip_of_ne_zero {g : LaneGroup} (h : g ≠ 0) (s : State) :
    reqTrip g s = ((s.setSoft (s.soft.tripped g)).tripGroup .soft (s.soft.newly g), .ok) := if_neg h

/-- A TRIP whose lanes are all in the group of a LATCHED SOFT leaves SOFT as it is, and trips nothing (R135). -/
theorem SoftSource.tripped_of_covered {r : SoftSource} (h : r.state = .latched) {g : LaneGroup} (hg : g &&& ~~~r.group = 0) :
    r.tripped g = r ∧ r.newly g = 0 := by
  have hor : r.group ||| g = r.group := by
    refine BitVec.eq_of_getLsbD_eq fun k hk => ?_
    have hbit := congrArg (BitVec.getLsbD · k) hg
    simp only [BitVec.getLsbD_and, BitVec.getLsbD_not, hk, decide_true, Bool.true_and] at hbit
    rw [BitVec.getLsbD_or]
    cases hr : r.group.getLsbD k <;> simp_all
  have hnot : ¬ r.state = .quiet := by simp [h]
  rw [SoftSource.tripped, SoftSource.newly, if_neg hnot, if_neg hnot, hor]
  exact ⟨rfl, hg⟩

/-- A source that is not QUIET pulls ATTN_N low outside reset (R130, R149). -/
theorem State.attnLow_of_soft {s : State} (hr : s.inReset = false) (h : s.soft.state ≠ .quiet) : s.attnLow = true := by
  simp [State.attnLow, State.attention, hr, h]

/-- Settles O50: the TRIP writes SOFT and is one trip of the lanes newly in its group, none where the group covers them. -/
theorem tripTripsTheGroup : Obligations.TripTripsTheGroup := by
  unfold Obligations.TripTripsTheGroup
  intro s tag g hs hg hheld c before
  obtain ⟨hsoft, hnewly⟩ := SoftSource.tripped_eq hheld g
  have hexec := request_answered (c := c) hs (reqTrip_of_ne_zero hg s)
  generalize hu : s.setSoft (s.soft.tripped g) = u at hexec
  have hkept : u.tripA = s.tripA ∧ u.tripB = s.tripB ∧ u.pins = s.pins ∧ u.link = s.link := hu ▸ ⟨rfl, rfl, rfl, rfl⟩
  have htripped : s.Tripped (u.tripGroup .soft (s.soft.newly g)) .soft (g &&& ~~~before) := by
    rw [hnewly, ← hu]
    exact State.tripGroup_tripped ⟨rfl, rfl, rfl, rfl, rfl⟩ ⟨rfl, rfl, rfl, rfl⟩ rfl _ _
  have hsame : s.soft.state = .latched → g &&& ~~~s.soft.group = 0 → u.tripGroup .soft (s.soft.newly g) = s :=
    fun hl hcovered => by
      obtain ⟨hrecord, hnone⟩ := SoftSource.tripped_of_covered hl hcovered
      rw [hnone, State.tripGroup_zero, ← hu, hrecord]
      rfl
  obtain ⟨-, ⟨hta, htb, htsoft⟩, htpins, htlink, -⟩ := u.tripGroup_outside .soft (s.soft.newly g)
  generalize u.tripGroup .soft (s.soft.newly g) = t at *
  obtain ⟨ha, hb, hpins, hlink⟩ := hkept
  have hsoft' : t.soft = { group := before ||| g, state := .latched } := by rw [htsoft, ← hu, State.setSoft_soft, hsoft]
  have hr : t.inReset = false := by
    rw [State.inReset, htpins, hpins]
    exact hs.1
  refine ⟨t.answered c .ok, congrArg Host.Outcome.next hexec, hsoft', htripped, hta.trans ha, htb.trans hb,
    htpins.trans hpins, State.attnLow_of_soft (s := t.answered c .ok) hr ?_, ?_, fun hl hcovered => ?_⟩
  · change t.soft.state ≠ .quiet
    rw [hsoft']
    nofun
  · rw [← hlink, ← htlink]
    rfl
  · rw [hsame hl hcovered]
    rfl

end Sys2Proof.Machine
end

section
/-! CERTIFICATE. The law of the link (R139, R143, R145, R147, R153): what an execution can do to the link, what each event of a
transaction does, and that every step keeps the law. -/

namespace Sys2Proof.Machine

/-! ### An execution goes on, or ends (R145, R146) -/

/-- An execution in progress has gone on or ended, and none has begun; the transaction is as it was. -/
def Link.ExecutionGoesOn (l l' : Link) : Prop :=
  ∃ (b : Buffer) (age : Nat), l' = { l with buffer := b, age := age } ∧ (b.isExecuting = true → l.buffer.isExecuting = true)

namespace Link.ExecutionGoesOn

variable {l l' l'' : Link}

theorem refl (l : Link) : l.ExecutionGoesOn l := ⟨l.buffer, l.age, rfl, id⟩

theorem of_eq (h : l' = l) : l.ExecutionGoesOn l' := h ▸ .refl l

theorem trans (h : l.ExecutionGoesOn l') (k : l'.ExecutionGoesOn l'') : l.ExecutionGoesOn l'' := by
  obtain ⟨b, age, rfl, hb⟩ := h
  obtain ⟨b', age', rfl, hb'⟩ := k
  exact ⟨b', age', rfl, fun hx => hb (hb' hx)⟩

/-- The law of the link speaks of the buffer only to shut out an execution. -/
theorem lawful (h : l.ExecutionGoesOn l') (hl : l.Lawful) : l'.Lawful := by
  obtain ⟨b, age, rfl, hb⟩ := h
  obtain ⟨hord, hrest⟩ := hl
  exact ⟨fun ho => Bool.eq_false_iff.mpr fun hx => Bool.eq_false_iff.mp (hord ho) (hb hx), hrest⟩

theorem ite {c : Prop} [Decidable c] {s t u : State} (ht : s.link.ExecutionGoesOn t.link)
    (hu : s.link.ExecutionGoesOn u.link) : s.link.ExecutionGoesOn (if c then t else u).link := by
  split
  · exact ht
  · exact hu

end Link.ExecutionGoesOn

/-- A response put into the buffer ends the execution (R144, R146). -/
theorem State.setBuffer_ready_goesOn (s : State) (frame : List Byte) :
    s.link.ExecutionGoesOn (s.setBuffer (.ready frame)).link := ⟨_, _, rfl, nofun⟩

theorem State.SameOutsideRuns.link_eq {s t : State} (h : s.SameOutsideRuns t) : t.link = s.link := by
  obtain ⟨-, -, -, hlink, -⟩ := h
  exact hlink

theorem State.settle_link (s : State) : s.settle.link = s.link := s.settle_outside.link_eq

/-- What changes nothing outside the runs leaves an execution as it was. -/
theorem State.SameOutsideRuns.goesOn {s t : State} (h : s.SameOutsideRuns t) : s.link.ExecutionGoesOn t.link :=
  .of_eq h.link_eq

/-- The owner of a request leaves an execution as it was, with the whole of the tick event before it (R146). -/
theorem State.owner_link {c : Instr} {own : State → State × Answer} (hc : ∀ s, serve c s = some (own s)) (s : State) :
    (own s.settle).1.link = s.link := by
  obtain ⟨-, hlink, -⟩ := (serve_served (hc s.settle)).surroundings
  exact hlink.trans s.settle_link

theorem State.endExecution_goesOn (s : State) : s.link.ExecutionGoesOn s.endExecution.link := by
  unfold State.endExecution
  split
  · next c _ =>
    obtain ⟨-, hlink, -⟩ := s.serveSettled_surroundings c
    exact .trans (.of_eq hlink) (State.setBuffer_ready_goesOn _ _)
  · exact s.setBuffer_ready_goesOn _
  · exact .refl _
  · exact .refl _

/-- A request goes on with its own execution at its take point, and ends any other (R146). -/
theorem State.request_goesOn (s : State) {c : Instr} {own : State → State × Answer} (hc : ∀ s, serve c s = some (own s)) :
    s.link.ExecutionGoesOn (s.request c own).link := by
  unfold State.request State.whenRunning
  refine .ite (.refl _) ?_
  dsimp only
  split
  · next hb =>
    refine ⟨.executing (.answered c.tag (own s.settle).2), s.link.age, ?_, fun _ => by rw [hb]; rfl⟩
    exact congrArg (fun l : Link => { l with buffer := .executing (.answered c.tag (own s.settle).2) })
      (State.owner_link hc s)
  · exact (s.endExecution_goesOn.trans (.of_eq (State.owner_link hc _))).trans (State.setBuffer_ready_goesOn _ _)

/-! ### The CLK edge -/

theorem State.clkTrips_goesOn (s : State) (restarted : List TripInput) :
    s.link.ExecutionGoesOn (s.clkTrips restarted).link := by
  unfold State.clkTrips
  dsimp only
  generalize s.sourceAtEdge restarted .a = a, s.sourceAtEdge restarted .b = b
  split
  · exact (((s.setTrip .a a).setTrip .b b).takeTrips_outside _).goesOn
  · next tag g _ =>
    have htaken := ((((s.setTrip .a a).setTrip .b b).setSoft (s.soft.tripped g)).takeTrips_outside
      (s.tripOf .a a ++ s.tripOf .b b ++ [⟨.soft, s.soft.newly g⟩])).goesOn
    exact .trans htaken (State.setBuffer_ready_goesOn _ _)

theorem State.clkExecution_goesOn (s : State) : s.link.ExecutionGoesOn s.clkExecution.link := by
  unfold State.clkExecution
  split
  · exact .ite s.endExecution_goesOn ⟨_, _, rfl, id⟩
  · exact .refl _
  · exact .refl _

theorem State.clkUnit_goesOn (s : State) (order : List TickUnit) (restarted : List TripInput) (u : Config.EdgeUnit) :
    s.link.ExecutionGoesOn (s.clkUnit order restarted u).link := by
  cases u with
  | timebase => exact .of_eq (s.clkTimebase_link order)
  | tripSamples => exact s.clkTrips_goesOn restarted
  | execution => exact .ite (s.clkTrips_goesOn restarted) s.clkExecution_goesOn

theorem EdgeWork.take_goesOn (w : EdgeWork) (tickOrder : List TickUnit) (u : Config.EdgeUnit) :
    w.state.link.ExecutionGoesOn (w.take tickOrder u).state.link := by
  unfold EdgeWork.take
  split
  · exact .refl _
  · exact w.state.clkUnit_goesOn tickOrder w.restarted u

theorem State.clkPartsIn_goesOn (s : State) (order : List Config.EdgeUnit) (tickOrder : List TickUnit) :
    s.link.ExecutionGoesOn (s.clkPartsIn order tickOrder).link := by
  have hw := List.foldlRecOn (motive := fun w : EdgeWork => s.link.ExecutionGoesOn w.state.link) order
    (EdgeWork.take tickOrder) (b := { state := s, overtaken := [], restarted := [] }) (.refl _)
    fun w hw u _ => hw.trans (w.take_goesOn tickOrder u)
  exact .ite hw hw

/-- A CLK edge begins no execution, in any order of its parts (log entry 4). -/
theorem State.clkEdge_goesOn (s : State) : s.link.ExecutionGoesOn s.clkEdge.link := by
  have hp : s.link.ExecutionGoesOn s.settle.clkParts.link := by
    unfold State.clkParts
    exact .trans (.of_eq s.settle_link) (State.clkPartsIn_goesOn _ _ _)
  exact .ite (.refl _) hp

/-! ### The events of a transaction (R139, R140, R143, R147, R153) -/

/-- A transaction that opens during an execution is not ORDINARY, and its frame is chosen as it opens (R140). -/
theorem Link.openTransaction_lawful (l : Link) : l.openTransaction.Lawful := by
  refine ⟨fun ho => ?_, fun hc => ?_, fun _ => Option.some_ne_none _, rfl⟩
  · change l.buffer.chosen.2 = .ordinary at ho
    change l.buffer.isExecuting = false
    cases hb : l.buffer with
    | executing x => rw [hb] at ho; cases ho
    | empty => rfl
    | ready frame => rfl
  · exact ⟨rfl, rfl⟩

/-- A byte is received in an open transaction (R139). -/
theorem Link.receive_of_open {l : Link} (h : l.transaction = .ordinary ∨ l.transaction = .discarding) (b : Byte) :
    l.receive b =
      { l with
        received := if l.received.length < 64 then l.received ++ [b] else l.received
        count := l.count + 1 } := by
  unfold Link.receive
  rcases h with h | h <;> rw [h] <;> rfl

/-- The first 64 bytes are kept (R139). -/
theorem Link.Lawful.receive {l : Link} (h : l.Lawful) (b : Byte) : (l.receive b).Lawful := by
  obtain ⟨hord, hclosed, hopen, hlen⟩ := h
  by_cases ht : l.transaction = .ordinary ∨ l.transaction = .discarding
  · rw [Link.receive_of_open ht]
    refine ⟨hord, fun hc => ?_, hopen, ?_⟩
    · rcases ht with ht | ht <;> rcases hc with hc | hc <;> exact Transaction.noConfusion (ht.symm.trans hc)
    · dsimp only
      split
      · rw [List.length_append, List.length_singleton]
        omega
      · omega
  · rw [Link.receive_of_no_transaction ?_]
    · exact ⟨hord, hclosed, hopen, hlen⟩
    · cases hl : l.transaction <;> simp_all

/-- A transaction that is closed with its bytes used or discarded leaves none (log entry 24). -/
theorem Link.closeTransaction_lawful (l : Link) (b : Buffer) (age : Nat) :
    Link.Lawful { l.closeTransaction with buffer := b, age := age } :=
  ⟨nofun, fun _ => ⟨rfl, rfl⟩, fun h => h.elim nofun nofun, rfl⟩

/-- Only a transaction of 0 bytes is ignored (R143). -/
theorem executionOf_judge_of_ne_zero {n : Nat} (h : n ≠ 0) (bytes : List Byte) :
    ∃ x, executionOf (judge n bytes) = some x := by
  unfold judge
  rw [if_neg h]
  split
  · dsimp only
    unfold judgeWhole
    repeat' split
    all_goals exact ⟨_, rfl⟩
  · exact ⟨_, rfl⟩

/-- The close of an ORDINARY transaction of 0 bytes (R143). -/
theorem Link.rise_of_ordinary_zero {l : Link} (ht : l.transaction = .ordinary) (hn : l.count = 0) : l.rise = l.close := by
  rw [Link.rise, ht, hn]
  rfl

/-- The close of an ORDINARY transaction that received a byte (R143, R144). -/
theorem Link.rise_of_ordinary {l : Link} (ht : l.transaction = .ordinary) (hn : l.count ≠ 0) :
    ∃ x, executionOf (judge l.count l.received) = some x ∧
      l.rise = { l.closeTransaction with buffer := .executing x, age := 0 } := by
  obtain ⟨x, hx⟩ := executionOf_judge_of_ne_zero hn l.received
  refine ⟨x, hx, ?_⟩
  rw [Link.rise, ht]
  dsimp only
  rw [Link.judged, hx]

theorem Link.rise_of_discarding {l : Link} (ht : l.transaction = .discarding) : l.rise = l.closeTransaction := by
  rw [Link.rise, ht]

theorem Link.rise_of_waitHigh {l : Link} (ht : l.transaction = .waitHigh) : l.rise = l.close := by
  rw [Link.rise, ht]

/-- A transaction that is closed leaves no bytes where it received none. -/
theorem Link.close_lawful {l : Link} (h : l.received = [] ∧ l.count = 0) : l.close.Lawful := by
  refine ⟨nofun, fun _ => h, fun ho => ho.elim nofun nofun, ?_⟩
  change l.received.length = min 64 l.count
  rw [h.1, h.2]
  rfl

/-- The close of a transaction leaves none of its bytes, and the execution that it may begin finds the link closed (R143, R147,
R153). -/
theorem Link.Lawful.rise {l : Link} (h : l.Lawful) : l.rise.Lawful := by
  obtain ⟨-, hclosed, -, hlen⟩ := id h
  cases ht : l.transaction with
  | closed => rwa [Link.rise_of_closed ht]
  | waitHigh =>
    rw [Link.rise_of_waitHigh ht]
    exact Link.close_lawful (hclosed (.inr ht))
  | discarding =>
    rw [Link.rise_of_discarding ht]
    exact l.closeTransaction_lawful l.buffer l.age
  | ordinary =>
    by_cases hn : l.count = 0
    · rw [Link.rise_of_ordinary_zero ht hn]
      rw [hn] at hlen
      exact Link.close_lawful ⟨List.length_eq_zero_iff.mp hlen, hn⟩
    · obtain ⟨x, -, hx⟩ := Link.rise_of_ordinary ht hn
      rw [hx]
      exact l.closeTransaction_lawful _ _

/-- The link after a reset, with CS_N high or low (R153). -/
theorem Link.reset_lawful {tr : Transaction} (h : tr = .closed ∨ tr = .waitHigh) :
    Link.Lawful { Link.reset with transaction := tr } := by
  rcases h with rfl | rfl <;> decide

theorem transactionAfterReset_shut (csN : Level) :
    transactionAfterReset csN = .closed ∨ transactionAfterReset csN = .waitHigh := by
  cases csN
  · exact .inr rfl
  · exact .inl rfl

/-! ### The commands -/

theorem State.link_lawful_ite {c : Prop} [Decidable c] {s t : State} (hs : s.link.Lawful) (ht : t.link.Lawful) :
    (if c then s else t).link.Lawful := by
  split
  · exact hs
  · exact ht

/-- A sample leaves the link as it was, and so does the level of its pin (R82, R84). -/
theorem State.sampleAt_goesOn (s : State) (n : Fin 8) (level : Level) :
    s.link.ExecutionGoesOn ((s.setTrg n level).takeSample n level).link := by
  by_cases h : (s.line n).sampleDue = true
  · exact (State.takeSample_frame (s.setTrg n level) n level h).outside.goesOn
  · have hnone : (s.setTrg n level).takeSample n level = s.setTrg n level := if_neg h
    rw [hnone]
    exact .refl _

theorem State.setTripPin_link (s : State) (i : TripInput) (level : Level) : (s.setTripPin i level).link = s.link := by
  cases i <;> rfl

theorem State.tripReads_goesOn (s : State) (i : TripInput) (read : InputState) :
    s.link.ExecutionGoesOn (s.tripReads i read).link := by
  unfold State.tripReads State.tripRun
  refine .ite ?_ (.refl _)
  obtain ⟨-, -, -, hlink⟩ := (s.settle.setTripPin i ((s.trip i).levelFor read)).changeSource_records i
    (((s.settle.setTripPin i ((s.trip i).levelFor read)).trip i).afterRun read)
  exact .of_eq (hlink.trans ((State.setTripPin_link _ _ _).trans s.settle_link))

/-- An event of a tick or of a trip input leaves an execution as it was, and the end of an execution ends it. -/
theorem exec_goesOn_of_event {c : Instr} (s : State) (hr : isRequest c = false) (h1 : c ≠ .powerOn) (h2 : c ≠ .resetNAssert)
    (h3 : c ≠ .resetNRelease) (h4 : c ≠ .csNFall) (h5 : c ≠ .csNRise) (h6 : ∀ b, c ≠ .byteReceived b) :
    ∃ t, exec c s = .next t ∧ s.link.ExecutionGoesOn t.link := by
  cases c
  case powerOn | resetNAssert | resetNRelease | csNFall | csNRise => contradiction
  case byteReceived b => exact absurd rfl (h6 b)
  case tickEvent levels order =>
    obtain ⟨-, -, hlink, -⟩ := s.tick_outside levels order
    exact ⟨_, rfl, .ite (.refl _) (.of_eq hlink)⟩
  case overrun => exact ⟨_, rfl, .ite (.refl _) (.ite s.overrunOne_frame.outside.goesOn (.refl _))⟩
  case action => exact ⟨_, rfl, .ite (.refl _) s.actionOne_frame.outside.goesOn⟩
  case strobePulseEnd k => exact ⟨_, rfl, .ite (.refl _) (.ite (s.countdown_frame k).outside.goesOn (.refl _))⟩
  case triggerSample n level => exact ⟨_, rfl, .ite (.refl _) (.ite (s.sampleAt_goesOn n level) (.refl _))⟩
  case qualifiedEdge n =>
    refine ⟨_, rfl, .ite (.refl _) ?_⟩
    dsimp only
    split
    · exact .ite (s.sampleAt_goesOn n _) (.refl _)
    · exact .refl _
  case tripInputActive i | tripInputInactive i => exact ⟨_, rfl, .ite (.refl _) (s.tripReads_goesOn i _)⟩
  case tripFilterSample i level =>
    obtain ⟨-, hlink, -⟩ := s.settle.sampleTripPin_outside i level
    exact ⟨_, rfl, .ite (.refl _) (.of_eq (hlink.trans s.settle_link))⟩
  case executionEnd => exact ⟨_, rfl, .ite (.refl _) s.endExecution_goesOn⟩
  all_goals exact Bool.noConfusion hr

/-- Every command answers a next state that keeps the law of the link. -/
theorem exec_linkLawful {s : State} (h : s.link.Lawful) (c : Instr) : ∃ t, exec c s = .next t ∧ t.link.Lawful := by
  rcases hr : isRequest c with _ | _
  · by_cases h1 : c = .powerOn
    · refine h1 ▸ ⟨_, rfl, Link.reset_lawful ?_⟩
      split
      · exact .inl rfl
      · exact transactionAfterReset_shut _
    by_cases h2 : c = .resetNAssert
    · exact h2 ▸ ⟨_, rfl, Link.reset_lawful (.inl rfl)⟩
    by_cases h3 : c = .resetNRelease
    · exact h3 ▸ ⟨_, rfl, State.link_lawful_ite (Link.reset_lawful (transactionAfterReset_shut _)) h⟩
    by_cases h4 : c = .csNFall
    · exact h4 ▸ ⟨_, rfl, State.link_lawful_ite h (State.link_lawful_ite s.link.openTransaction_lawful h)⟩
    by_cases h5 : c = .csNRise
    · exact h5 ▸ ⟨_, rfl, State.link_lawful_ite h h.rise⟩
    by_cases h6 : ∃ b, c = .byteReceived b
    · obtain ⟨b, rfl⟩ := h6
      exact ⟨_, rfl, State.link_lawful_ite h (h.receive b)⟩
    obtain ⟨t, ht, hgoes⟩ := exec_goesOn_of_event s hr h1 h2 h3 h4 h5 fun b hb => h6 ⟨b, hb⟩
    exact ⟨t, ht, hgoes.lawful h⟩
  · obtain ⟨own, hs, he⟩ := exec_of_isRequest hr
    exact ⟨_, he s, (s.request_goesOn hs).lawful h⟩

/-- Settles O59: a step is an event of a transaction, which keeps the law by its own rule, a reset, or work on an execution in
progress, which begins none. -/
theorem everyStepKeepsTheLinkLaw : Obligations.EveryStepKeepsTheLinkLaw := by
  unfold Obligations.EveryStepKeepsTheLinkLaw
  intro s t h hst
  unfold step at hst
  split at hst
  · next c rest _ =>
    obtain ⟨u, hu, hl⟩ := exec_linkLawful (s := s.withPending rest) h c
    rwa [← Host.Outcome.next.inj (hu.symm.trans hst)]
  · rw [← Host.Outcome.next.inj hst]
    exact s.clkEdge_goesOn.lawful h

end Sys2Proof.Machine
end

section
/-! CERTIFICATE. The events of a transaction and the end of an execution: what opens, what is received, how a close is judged (Table
9-3), and the response that is built (R139, R140, R141, R143, R144, R146, R147, R153). -/

namespace Sys2Proof.Machine

variable {s : State}

/-! ### The events outside reset -/

theorem exec_csNFall_of_running (hr : s.inReset = false) (ht : s.link.transaction = .closed) :
    exec .csNFall s = .next ((s.setPins { s.pins with csN := .low }).setLink s.link.openTransaction) :=
  congrArg Host.Outcome.next
    ((State.whenRunning_of_running (s := s.setPins { s.pins with csN := .low }) hr _).trans (if_pos ht))

theorem exec_csNRise_of_running (hr : s.inReset = false) :
    exec .csNRise s = .next ((s.setPins { s.pins with csN := .high }).setLink s.link.rise) :=
  congrArg Host.Outcome.next (State.whenRunning_of_running (s := s.setPins { s.pins with csN := .high }) hr _)

theorem exec_byteReceived_of_running (hr : s.inReset = false) (b : Byte) :
    exec (.byteReceived b) s = .next (s.setLink (s.link.receive b)) :=
  congrArg Host.Outcome.next (State.whenRunning_of_running hr _)

theorem exec_executionEnd_of_running (hr : s.inReset = false) : exec .executionEnd s = .next s.endExecution :=
  congrArg Host.Outcome.next (State.whenRunning_of_running hr _)

/-! ### A transaction opens (R140, Table 10-4) -/

theorem responseFrame_noResponse : responseFrame 0 (.refusal .noResponse) = [0xE1, 0x00, 0x00, 0xA5] := by decide +kernel

theorem responseFrame_notReady : responseFrame 0 (.refusal .notReady) = [0xE0, 0x00, 0x00, 0xCE] := by decide +kernel

/-- The frame that a buffer chooses at CS_N fall, and the transaction that opens (R140, Table 10-4). -/
theorem Buffer.chosen_eq (b : Buffer) :
    b.chosen.2 = (if b.isExecuting then .discarding else .ordinary) ∧
      some b.chosen.1 = match b with
        | .ready frame => some frame
        | .empty => some [0xE1, 0x00, 0x00, 0xA5]
        | .executing _ => some [0xE0, 0x00, 0x00, 0xCE] := by
  cases b with
  | ready frame => exact ⟨rfl, rfl⟩
  | empty => exact ⟨rfl, congrArg some responseFrame_noResponse⟩
  | executing x => exact ⟨rfl, congrArg some responseFrame_notReady⟩

/-- Settles O23: the frame chosen, buffer by buffer, and the byte counted. -/
theorem transactionOpensAndReceives : Obligations.TransactionOpensAndReceives := by
  unfold Obligations.TransactionOpensAndReceives
  intro s b hr
  refine ⟨fun ht => ?_, fun ht => ?_⟩
  · obtain ⟨htransaction, hframe⟩ := s.link.buffer.chosen_eq
    rw [exec_csNFall_of_running hr ht, Link.openTransaction, htransaction, hframe]
    rfl
  · rw [exec_byteReceived_of_running hr, Link.receive_of_open ht]
    rfl

/-! ### The judgement (R143, R144, Table 9-3) -/

/-- A transaction of 1 to 3 bytes is a FRAME_ERROR with the tag, where it has one (R143, R144). -/
theorem judge_of_short {bytes : List Byte} (h0 : bytes.length ≠ 0) (h : bytes.length < 4) :
    judge bytes.length bytes = .frameError (if bytes.length = 1 then 0 else bytes.getD 1 0) := by
  match bytes with
  | [_] => rfl
  | [_, _] => rfl
  | [code, tag, len] =>
    have hshort : [code, tag, len].length < len.toNat + 4 := Nat.lt_add_left _ h
    simp only [judge, if_neg h0, if_pos hshort, ite_self]
    rfl

/-- A transaction of 4 bytes or more is judged by its length byte and its CRC, and then as a whole frame (R143, Table 9-3). -/
theorem judge_of_header {n : Nat} {bytes : List Byte} (hn : n ≠ 0) (h : 3 ≤ bytes.length) :
    judge n bytes =
      if 60 < (bytes.getD 2 0).toNat then .frameError (bytes.getD 1 0)
      else if n < (bytes.getD 2 0).toNat + 4 then .frameError (bytes.getD 1 0)
      else if bytes.getD ((bytes.getD 2 0).toNat + 3) 0 ≠ crc8 (bytes.take ((bytes.getD 2 0).toNat + 3)) then
        .frameError (bytes.getD 1 0)
      else judgeWhole (bytes.getD 0 0) (bytes.getD 1 0) ((bytes.drop 3).take (bytes.getD 2 0).toNat) := by
  match bytes with
  | code :: tag :: len :: rest =>
    change judge n (code :: tag :: len :: rest) =
      if 60 < len.toNat then .frameError tag
      else if n < len.toNat + 4 then .frameError tag
      else if rest.getD len.toNat 0 ≠ crc8 (code :: tag :: len :: rest.take len.toNat) then .frameError tag
      else judgeWhole code tag (rest.take len.toNat)
    simp only [judge, if_neg hn, ne_eq, ite_not, eq_comm (a := crc8 _)]

/-- A whole frame whose code names no request (R144). -/
theorem judgeWhole_of_unknown {code : Byte} (h : code ∉ requestCodes) (tag : Byte) (payload : List Byte) :
    judgeWhole code tag payload = .badRequest tag := if_neg (List.contains_iff_mem.not.mpr h)

/-- A whole frame that spells a request (R143). -/
theorem judgeWhole_of_request {code tag : Byte} {payload : List Byte} {c : Instr} (h : code ∈ requestCodes)
    (hreq : requestOf code tag payload = some c) : judgeWhole code tag payload = .executed c := by
  rw [judgeWhole, if_pos (List.contains_iff_mem.mpr h), hreq]

/-- A whole frame whose payload has not the length of its known code (R144). -/
theorem judgeWhole_of_wrongLength {code tag : Byte} {payload : List Byte} (h : code ∈ requestCodes)
    (hreq : requestOf code tag payload = none) : judgeWhole code tag payload = .wrongLength tag := by
  rw [judgeWhole, if_pos (List.contains_iff_mem.mpr h), hreq]

/-- The execution that the close of an ORDINARY transaction begins, whatever link state it meets (R143, R144). -/
theorem Link.rise_buffer_of_ordinary {l : Link} (ht : l.transaction = .ordinary) (hn : l.count ≠ 0) {x : Execution}
    (hx : executionOf (judge l.count l.received) = some x) : l.rise.buffer = .executing x := by
  obtain ⟨y, hy, hrise⟩ := Link.rise_of_ordinary ht hn
  rw [hrise, Option.some.inj (hx.symm.trans hy)]

/-- CS_N rise leaves the link CLOSED, with the outgoing frame it had (R143, R147, R153; log entry 24). -/
theorem Link.rise_eq (l : Link) : l.rise =
    { l with
      transaction := .closed, received := l.rise.received, count := l.rise.count
      buffer := l.rise.buffer, age := l.rise.age } := by
  cases ht : l.transaction with
  | closed => rw [Link.rise_of_closed ht, ← ht]
  | waitHigh => rw [Link.rise_of_waitHigh ht]; rfl
  | discarding => rw [Link.rise_of_discarding ht]; rfl
  | ordinary =>
    by_cases hn : l.count = 0
    · rw [Link.rise_of_ordinary_zero ht hn]; rfl
    · obtain ⟨x, -, hx⟩ := Link.rise_of_ordinary ht hn
      rw [hx]; rfl

/-- A close that judges nothing leaves the buffer (R143, R147, R153). -/
theorem Link.rise_buffer_of_not_judged {l : Link} (h : l.transaction ≠ .ordinary ∨ l.count = 0) :
    l.rise.buffer = l.buffer ∧ l.rise.age = l.age := by
  cases ht : l.transaction with
  | closed => rw [Link.rise_of_closed ht]; exact ⟨rfl, rfl⟩
  | waitHigh => rw [Link.rise_of_waitHigh ht]; exact ⟨rfl, rfl⟩
  | discarding => rw [Link.rise_of_discarding ht]; exact ⟨rfl, rfl⟩
  | ordinary => rw [Link.rise_of_ordinary_zero ht (h.resolve_left (absurd ht))]; exact ⟨rfl, rfl⟩

/-- The received bytes after a close: those of a transaction of 1 byte or more are gone (log entry 24). -/
theorem Link.rise_received {l : Link} (h : l.transaction ≠ .closed) (hlen : l.received.length = min 64 l.count) :
    if l.transaction = .waitHigh ∨ l.count = 0 then l.rise.received = l.received ∧ l.rise.count = l.count
    else l.rise.received = [] ∧ l.rise.count = 0 := by
  cases ht : l.transaction with
  | closed => exact absurd ht h
  | waitHigh => rw [Link.rise_of_waitHigh ht]; exact ⟨rfl, rfl⟩
  | discarding =>
    rw [Link.rise_of_discarding ht]
    split
    · next hc =>
      have hn : l.count = 0 := hc.resolve_left nofun
      rw [hn] at hlen ⊢
      exact ⟨(List.length_eq_zero_iff.mp hlen).symm, rfl⟩
    · exact ⟨rfl, rfl⟩
  | ordinary =>
    by_cases hn : l.count = 0
    · rw [Link.rise_of_ordinary_zero ht hn, if_pos (.inr hn)]; exact ⟨rfl, rfl⟩
    · obtain ⟨x, -, hx⟩ := Link.rise_of_ordinary ht hn
      rw [hx, if_neg (by simp [hn])]
      exact ⟨rfl, rfl⟩

/-- Settles O24: each transaction state by its own rule; the bytes of an ORDINARY one are too few, or a header with the rest behind
it. -/
theorem csNRiseJudges : Obligations.CsNRiseJudges := by
  unfold Obligations.CsNRiseJudges
  intro s hr hopen n b len payload answer hlen
  refine ⟨_, exec_csNRise_of_running hr, ?_, Link.rise_buffer_of_not_judged, Link.rise_received hopen hlen, fun ht hn => ?_⟩
  · exact congrArg (s.setPins { s.pins with csN := .high }).setLink s.link.rise_eq
  · change s.link.rise.buffer = _
    have hbuffer : ∀ {j x}, judge n s.link.received = j → executionOf j = some x → s.link.rise.buffer = .executing x :=
      fun hj hx => Link.rise_buffer_of_ordinary ht hn ((congrArg executionOf hj).trans hx)
    by_cases h4 : n < 4
    · have hlen' : s.link.received.length = n := by omega
      have hj := judge_of_short (bytes := s.link.received) (by omega) (by omega)
      rw [hlen'] at hj
      rw [if_pos h4]
      exact hbuffer hj rfl
    · rw [if_neg h4]
      have hj := judge_of_header (bytes := s.link.received) hn (by omega)
      by_cases hlong : 60 < len
      · rw [if_pos hlong] at hj ⊢
        exact hbuffer hj rfl
      by_cases hshort : n < len + 4
      · rw [if_neg hlong, if_pos hshort] at hj ⊢
        exact hbuffer hj rfl
      by_cases hcrc : b (len + 3) ≠ crc8 (s.link.received.take (len + 3))
      · rw [if_neg hlong, if_neg hshort, if_pos hcrc] at hj ⊢
        exact hbuffer hj rfl
      rw [if_neg hlong, if_neg hshort, if_neg hcrc] at hj ⊢
      by_cases hcode : b 0 ∈ requestCodes
      · rw [if_neg (not_not_intro hcode)]
        cases hreq : requestOf (b 0) (b 1) payload with
        | some request => exact hbuffer (hj.trans (judgeWhole_of_request hcode hreq)) rfl
        | none => exact hbuffer (hj.trans (judgeWhole_of_wrongLength hcode hreq)) rfl
      · rw [if_pos hcode]
        exact hbuffer (hj.trans (judgeWhole_of_unknown hcode _ _)) rfl

/-! ### The response (R141, R146) -/

/-- Settles O25: the end of an execution that is answered puts the frame of its answer into the buffer. -/
theorem executionEndBuildsTheResponse : Obligations.ExecutionEndBuildsTheResponse := by
  unfold Obligations.ExecutionEndBuildsTheResponse
  intro s tag a hr hb
  have hend : s.endExecution = s.setBuffer (.ready (responseFrame tag a)) := by rw [State.endExecution, hb]
  rw [exec_executionEnd_of_running hr, hend]
  rfl

end Sys2Proof.Machine
end

section
/-! CERTIFICATE. Frames (R141, R142): the CRC-8 of a frame is zero, and the frame of a request is judged to be the request. -/

namespace Sys2Proof.Machine

/-! ### The CRC-8 (R142) -/

/-- No remainder but 0 shifts to 0: the bit that 0x07 puts in at the right is not one that the shift leaves. -/
theorem crcShift_eq_zero_iff (r : Byte) : crcShift r = 0 ↔ r = 0 := by
  refine ⟨fun h => ?_, fun h => by rw [h]; rfl⟩
  unfold crcShift at h
  split at h
  · have hbit := congrArg (BitVec.getLsbD · 0) h
    simp at hbit
  · next hmsb =>
    have hsmall : r.toNat < 128 := by simpa [BitVec.msb_eq_decide] using hmsb
    have hdouble : r.toNat * 2 % 256 = 0 := by simpa [Nat.shiftLeft_eq] using congrArg BitVec.toNat h
    exact BitVec.eq_of_toNat_eq (show r.toNat = 0 by omega)

theorem crcByte_eq_zero_iff (r b : Byte) : crcByte r b = 0 ↔ b = r := by
  simp only [crcByte, crcShift_eq_zero_iff]
  exact BitVec.xor_eq_zero_iff.trans eq_comm

theorem crc8_append (bytes : List Byte) (c : Byte) : crc8 (bytes ++ [c]) = crcByte (crc8 bytes) c := by
  simp [crc8]

/-- Settles O29: the last byte leaves 0 exactly where it equals the remainder it meets. -/
theorem crcClosesAFrame : Obligations.CrcClosesAFrame := by
  unfold Obligations.CrcClosesAFrame
  intro bytes c
  rw [crc8_append]
  exact crcByte_eq_zero_iff _ _

/-- The CRC of a whole frame is 0 (R141, R142). -/
theorem crc8_frameOf (code tag : Byte) (payload : List Byte) : crc8 (frameOf code tag payload) = 0 :=
  (crcClosesAFrame _ _).mpr rfl

/-! ### Multi-byte fields (R154) -/

theorem ofBytes2_extract (x : BitVec 16) : ofBytes2 (x.extractLsb' 8 8) (x.extractLsb' 0 8) = x := by
  have h : x.extractLsb' 8 8 ++ x.extractLsb' 0 8 = x.extractLsb' 0 16 :=
    BitVec.extractLsb'_append_extractLsb'_eq_extractLsb' rfl
  rw [ofBytes2, h]
  exact BitVec.extractLsb'_eq_self

theorem ofBytes3_extract (x : BitVec 24) :
    ofBytes3 (x.extractLsb' 16 8) (x.extractLsb' 8 8) (x.extractLsb' 0 8) = x := by
  have h1 : x.extractLsb' 16 8 ++ x.extractLsb' 8 8 = x.extractLsb' 8 16 :=
    BitVec.extractLsb'_append_extractLsb'_eq_extractLsb' rfl
  have h2 : x.extractLsb' 8 16 ++ x.extractLsb' 0 8 = x.extractLsb' 0 24 :=
    BitVec.extractLsb'_append_extractLsb'_eq_extractLsb' rfl
  rw [ofBytes3, h1, h2]
  exact BitVec.extractLsb'_eq_self

/-! ### The request that a frame spells (chapter 10) -/

/-- The code and the payload of a request spell it, with its tag (R141, R154). -/
theorem requestOf_codeAndPayload {c : Instr} {code : Byte} {payload : List Byte}
    (hset : ∀ tag n kind block members, c = .scheduleSet tag n kind block members → members.length = n.toNat)
    (h : c.codeAndPayload = some (code, payload)) : code ∈ requestCodes ∧ requestOf code c.tag payload = some c := by
  cases c <;> cases h
  case setTime v => exact ⟨by decide, congrArg (fun x => some (Instr.setTime _ x)) (ofBytes4_extract v)⟩
  case setDivider m => exact ⟨by decide, congrArg (fun x => some (Instr.setDivider _ x)) (ofBytes2_extract m)⟩
  case trip g => exact ⟨by decide, congrArg (fun x => some (Instr.trip _ x)) (ofBytes2_extract g)⟩
  case tripConfig g => exact ⟨by decide, congrArg (fun x => some (Instr.tripConfig _ _ _ _ _ x)) (ofBytes2_extract g)⟩
  case define tag e l d w p n st nt =>
    refine ⟨by decide, ?_⟩
    change some (Instr.define tag e l (ofBytes3 _ _ _) (ofBytes3 _ _ _) (ofBytes3 _ _ _) (ofBytes2 _ _) st nt) = _
    rw [ofBytes3_extract, ofBytes3_extract, ofBytes3_extract, ofBytes2_extract]
  case amend tag e m d w p n =>
    refine ⟨by decide, ?_⟩
    change some (Instr.amend tag e m (ofBytes3 _ _ _) (ofBytes3 _ _ _) (ofBytes3 _ _ _) (ofBytes2 _ _)) = _
    rw [ofBytes3_extract, ofBytes3_extract, ofBytes3_extract, ofBytes2_extract]
  case scheduleSet tag n kind block members =>
    exact ⟨by decide, if_pos (hset _ _ _ _ _ rfl)⟩
  all_goals exact ⟨by decide, rfl⟩

/-- The payload of a well-formed request fits a frame (R141, R158). -/
theorem codeAndPayload_length {c : Instr} {code : Byte} {payload : List Byte} (hw : c.wellFormed = true)
    (h : c.codeAndPayload = some (code, payload)) : payload.length ≤ 60 := by
  cases c <;> cases h
  case scheduleSet tag n kind block members =>
    have hfit : members.length ≤ 53 := of_decide_eq_true hw
    simp only [StartBlock.bytes, List.length_append, List.length_cons, List.length_nil]
    omega
  all_goals exact Nat.le_of_ble_eq_true rfl

/-- The length byte of a frame (R141). -/
theorem toNat_length_byte {n : Nat} (h : n ≤ 60) : (BitVec.ofNat 8 n).toNat = n :=
  (BitVec.toNat_ofNat _ _).trans (Nat.mod_eq_of_lt (by omega))

/-- A whole frame is judged by its code and its payload (R143). -/
theorem judge_frameOf {code tag : Byte} {payload : List Byte} (h : payload.length ≤ 60) :
    judge (frameOf code tag payload).length (frameOf code tag payload) = judgeWhole code tag payload := by
  rw [length_frameOf]
  simp only [frameOf, List.cons_append, judge, toNat_length_byte h, List.take_left, List.getD_append_right _ _ _ _ (Nat.le_refl _),
    Nat.sub_self]
  rw [if_neg (Nat.succ_ne_zero _), if_neg (Nat.not_lt.mpr h), if_neg (Nat.lt_irrefl _)]
  exact if_pos rfl

/-- The frame of a request is judged to be the request, to be executed (R143, R144). -/
theorem judge_frame {c : Instr} {frame : List Byte} (hw : c.wellFormed = true)
    (hset : ∀ tag n kind block members, c = .scheduleSet tag n kind block members → members.length = n.toNat)
    (hf : c.frame = some frame) : frame.length ≠ 0 ∧ frame.length ≤ 64 ∧ judge frame.length frame = .executed c := by
  obtain ⟨⟨code, payload⟩, hcp, rfl⟩ := Option.map_eq_some_iff.mp hf
  obtain ⟨hcode, hreq⟩ := requestOf_codeAndPayload hset hcp
  have hlen := codeAndPayload_length hw hcp
  refine ⟨?_, ?_, (judge_frameOf hlen).trans (judgeWhole_of_request hcode hreq)⟩
  · rw [length_frameOf]
    exact Nat.succ_ne_zero _
  · rw [length_frameOf]
    exact Nat.add_le_add_right hlen 4

/-! ### The bytes of a frame, received and closed (R139, R143) -/

/-- Bytes received in an ORDINARY transaction are all kept, up to 64 (R139). -/
theorem execAll_bytes {s : State} (hr : s.inReset = false) (ht : s.link.transaction = .ordinary) (bytes : List Byte)
    (h : s.link.received.length + bytes.length ≤ 64) :
    execAll (bytes.map Instr.byteReceived) s = .next (s.setLink
      { s.link with received := s.link.received ++ bytes, count := s.link.count + bytes.length }) := by
  induction bytes generalizing s with
  | nil =>
    rw [List.append_nil]
    rfl
  | cons b rest ih =>
    rw [List.length_cons] at h
    have hkept : s.link.receive b = { s.link with received := s.link.received ++ [b], count := s.link.count + 1 } := by
      rw [Link.receive_of_open (.inl ht), if_pos (by omega)]
    rw [List.map_cons, execAll_cons_of_next (exec_byteReceived_of_running hr b), hkept, ih]
    · simp only [State.setLink_link, List.append_assoc, List.singleton_append, Nat.add_assoc, Nat.add_comm 1,
        List.length_cons]
      rfl
    · exact hr
    · exact ht
    · rw [State.setLink_link, List.length_append, List.length_singleton]
      omega

/-- Settles O28: the bytes are all kept, and what they are judged to be is the request. -/
theorem frameIsJudgedToBeTheRequest : Obligations.FrameIsJudgedToBeTheRequest := by
  unfold Obligations.FrameIsJudgedToBeTheRequest
  intro s c frame hr ht hreceived hcount hw hset hf
  obtain ⟨hne, hlen, hjudge⟩ := judge_frame hw hset hf
  have hbytes := execAll_bytes hr ht frame (by rw [hreceived]; simpa using hlen)
  rw [hreceived, hcount, List.nil_append, Nat.zero_add] at hbytes
  generalize hl : ({ s.link with received := frame, count := frame.length } : Link) = l at hbytes
  obtain ⟨x, hx, hrise⟩ := Link.rise_of_ordinary (l := l) (hl ▸ ht) (hl ▸ hne)
  have hwaiting : executionOf (judge l.count l.received) = some (.waiting c) := hl ▸ congrArg executionOf hjudge
  rw [Option.some.inj (hx.symm.trans hwaiting)] at hrise
  rw [execAll_append _ hbytes, execAll_cons_of_next (exec_csNRise_of_running (s := s.setLink l) hr), State.setLink_link, hrise,
    ← hl]
  rfl

end Sys2Proof.Machine
end

section
/-! CERTIFICATE. The answers of the owners (R141, R142, R144, R154): every request is answered with a whole frame, and a refused one
changes nothing; NOP, and SOFT_RESET (R151, R152). -/

namespace Sys2Proof.Machine

/-! ### What every answer keeps -/

/-- An owner's answer: its payload fits a frame, and a status other than OK comes with the part as it was (R141, R154). -/
def State.Answers (s : State) (r : State × Answer) : Prop :=
  r.2.payload.length ≤ 60 ∧ (r.2.status ≠ .ok → r.1 = s)

namespace State.Answers

variable {s : State}

theorem ok (t : State) : s.Answers (t, .ok) := ⟨Nat.zero_le _, fun h => absurd rfl h⟩

theorem refusal (st : Status) : s.Answers (s, .refusal st) := ⟨Nat.zero_le _, fun _ => rfl⟩

/-- An answer that reads the part leaves it as it was. -/
theorem reading {a : Answer} (h : a.payload.length ≤ 60) : s.Answers (s, a) := ⟨h, fun _ => rfl⟩

theorem ite {c : Prop} [Decidable c] {r r' : State × Answer} (h : s.Answers r) (h' : s.Answers r') :
    s.Answers (if c then r else r') := by
  split
  · exact h
  · exact h'

theorem withEntry {b : Byte} {f : Fin 64 → State × Answer} (h : ∀ e, s.Answers (f e)) : s.Answers (withEntry b s f) :=
  withEntry_ind b s f (refusal _) h

end State.Answers

/-! ### Request by request -/

theorem reqSetTime_answers (value : Instant) (s : State) : s.Answers (reqSetTime value s) := .ite (.refusal _) (.ok _)

theorem reqSetDivider_answers (value : BitVec 16) (s : State) : s.Answers (reqSetDivider value s) :=
  .ite (.refusal _) (.ite (.refusal _) (.ok _))

theorem reqDefine_answers (entry lane : Byte) (d w p : Ticks) (n : Count) (strobe notify : Byte) (s : State) :
    s.Answers (reqDefine entry lane d w p n strobe notify s) := by
  refine .withEntry fun e => .ite ?_ (.refusal _)
  split
  · exact .refusal _
  · exact .ite (.ok _) (.refusal _)

theorem reqSchedule_answers (entry kind : Byte) (block : StartBlock) (s : State) :
    s.Answers (reqSchedule entry kind block s) := by
  refine .withEntry fun e => .ite ?_ (.refusal _)
  split
  · exact .refusal _
  · split
    · exact .ok _
    · exact .refusal _

theorem reqScheduleSet_answers (count kind : Byte) (block : StartBlock) (members : List Byte) (s : State) :
    s.Answers (reqScheduleSet count kind block members s) := by
  refine .ite (.refusal _) (.ite (.refusal _) ?_)
  split
  · exact .refusal _
  · split
    · exact .ok _
    · exact .reading (Nat.le_of_ble_eq_true rfl)

theorem reqAmend_answers (entry mask : Byte) (d w p : Ticks) (n : Count) (s : State) :
    s.Answers (reqAmend entry mask d w p n s) :=
  .withEntry fun _ => .ite (.ite (.ok _) (.ite (.refusal _) (.ite (.ok _) (.refusal _))))
    (.ite (.ite (.ok _) (.ite (.refusal _) (.ite (.refusal _) (.ite (.ok _) (.refusal _))))) (.refusal _))

theorem reqDrain_answers (entry : Byte) (s : State) : s.Answers (reqDrain entry s) :=
  .withEntry fun _ => .ite (.ok _) (.ite (.ok _) (.refusal _))

theorem reqCancel_answers (entry : Byte) (s : State) : s.Answers (reqCancel entry s) :=
  .withEntry fun _ => .ite (.ok _) (.refusal _)

theorem reqAck_answers (entry : Byte) (s : State) : s.Answers (reqAck entry s) :=
  .withEntry fun _ => .ite (.ok _) (.refusal _)

theorem reqRelease_answers (entry : Byte) (s : State) : s.Answers (reqRelease entry s) :=
  .withEntry fun _ => .ite (.ok _) (.refusal _)

/-- A start block is 5 bytes, whatever the start (Table 10-7). -/
theorem length_startBlockBytes (start : Option Start) : (startBlockBytes start).length = 5 := by
  rcases start with _ | ⟨_ | _ | _⟩ <;> rfl

/-- The 59 bytes of QUERY (Table 10-10). -/
theorem length_queryPayload (e : Fin 64) (r : Entry) : (queryPayload e r).length = 59 := by
  unfold queryPayload
  simp only [List.length_append, length_startBlockBytes]
  rfl

theorem reqQuery_answers (entry : Byte) (s : State) : s.Answers (reqQuery entry s) :=
  .withEntry fun e => .reading (by rw [length_queryPayload]; decide)

theorem reqTriggerConfig_answers (line edge sd k : Byte) (s : State) : s.Answers (reqTriggerConfig line edge sd k s) := by
  unfold reqTriggerConfig
  split
  · exact .ok _
  · exact .refusal _

theorem reqLaneConfig_answers (lane polarity safe : Byte) (s : State) : s.Answers (reqLaneConfig lane polarity safe s) := by
  unfold reqLaneConfig
  split
  · exact .ite (.refusal _) (.ok _)
  · exact .refusal _

theorem reqLaneSet_answers (lane value : Byte) (s : State) : s.Answers (reqLaneSet lane value s) := by
  unfold reqLaneSet
  split
  · exact .ite (.refusal _) (.ite (.refusal _) (.ok _))
  · exact .refusal _

theorem reqLaneQuery_answers (lane : Byte) (s : State) : s.Answers (reqLaneQuery lane s) := by
  unfold reqLaneQuery
  split
  · exact .reading (Nat.le_of_ble_eq_true rfl)
  · exact .refusal _

theorem reqStrobeConfig_answers (strobe width : Byte) (s : State) : s.Answers (reqStrobeConfig strobe width s) := by
  unfold reqStrobeConfig
  split
  · exact .ite (.refusal _) (.ok _)
  · exact .refusal _

theorem reqTripConfig_answers (source enabled al k : Byte) (g : LaneGroup) (s : State) :
    s.Answers (reqTripConfig source enabled al k g s) := by
  unfold reqTripConfig
  split
  · exact .ite (.refusal _) (.ok _)
  · exact .refusal _

theorem reqTrip_answers (g : LaneGroup) (s : State) : s.Answers (reqTrip g s) := .ite (.refusal _) (.ok _)

theorem reqClearTrip_answers (source : Byte) (s : State) : s.Answers (reqClearTrip source s) := by
  unfold reqClearTrip
  split
  · split
    · exact .refusal _
    · exact .ok _
    · exact .ok _
  · exact .refusal _

/-- Every owner answers so (R141, R146, R154). -/
theorem serve_answers {c : Instr} {s : State} {r : State × Answer} (h : serve c s = some r) : s.Answers r := by
  cases c <;> cases h
  case nop => exact .ok s
  case softReset => exact .ok _
  case readTime | summary => exact .reading (Nat.le_of_ble_eq_true rfl)
  case setTime v => exact reqSetTime_answers v s
  case setDivider m => exact reqSetDivider_answers m s
  case define => exact reqDefine_answers _ _ _ _ _ _ _ _ s
  case schedule => exact reqSchedule_answers _ _ _ s
  case scheduleSet => exact reqScheduleSet_answers _ _ _ _ s
  case amend => exact reqAmend_answers _ _ _ _ _ _ s
  case drain => exact reqDrain_answers _ s
  case cancel => exact reqCancel_answers _ s
  case query => exact reqQuery_answers _ s
  case ack => exact reqAck_answers _ s
  case release => exact reqRelease_answers _ s
  case triggerConfig => exact reqTriggerConfig_answers _ _ _ _ s
  case laneConfig => exact reqLaneConfig_answers _ _ _ s
  case laneSet => exact reqLaneSet_answers _ _ s
  case laneQuery => exact reqLaneQuery_answers _ s
  case strobeConfig => exact reqStrobeConfig_answers _ _ s
  case tripConfig => exact reqTripConfig_answers _ _ _ _ _ s
  case trip => exact reqTrip_answers _ s
  case clearTrip => exact reqClearTrip_answers _ s

/-! ### The frame of an answer (R141, R142) -/

/-- The code of OK alone is 0 (Table 10-3). -/
theorem Status.code_eq_zero_iff (st : Status) : st.code = 0 ↔ st = .ok := by cases st <;> decide

/-- Settles O30: the answer of the request's owner, in a frame whose bytes are read off. -/
theorem everyRequestIsAnswered : Obligations.EveryRequestIsAnswered := by
  unfold Obligations.EveryRequestIsAnswered
  intro s c hs hc
  obtain ⟨own, hown, hexec⟩ := exec_of_isRequest hc
  obtain ⟨hlen, hrefused⟩ := serve_answers (hown s)
  obtain ⟨hpins, hlink, hpending, -⟩ := (serve_served (hown s)).surroundings
  refine ⟨(own s).1.answered c (own s).2, ?_, ?_⟩
  · rw [hexec, State.request_of_steady hs]
    rfl
  · generalize own s = r at *
    have hlength := length_frameOf r.2.status.code c.tag r.2.payload
    refine ⟨?_, ?_, ?_, rfl, ?_, crc8_frameOf _ _ _, hpins, hpending, fun hcode => ?_⟩
    · exact congrArg (fun l : Link => { l with buffer := .ready (responseFrame c.tag r.2), age := 0 }) hlink
    · exact hlength ▸ Nat.le_add_left 4 _
    · exact hlength ▸ Nat.add_le_add_right hlen 4
    · exact (congrArg (· + 4) (toNat_length_byte hlen)).trans hlength.symm
    · have hst : r.2.status ≠ .ok := fun h => hcode ((Status.code_eq_zero_iff _).mpr h)
      exact congrArg (·.setBuffer (.ready (responseFrame c.tag r.2))) (hrefused hst)

/-! ### NOP (R151) and SOFT_RESET (R152) -/

/-- Settles O31: the owner of NOP answers OK and leaves the part as it is. -/
theorem nopOnlyAnswers : Obligations.NopOnlyAnswers := by
  unfold Obligations.NopOnlyAnswers
  exact fun s tag => ⟨rfl, fun hs => congrArg Host.Outcome.next (State.request_of_steady hs (.nop tag) reqNop)⟩

theorem State.clearClaims_line (s : State) (n : Fin 8) : s.clearClaims.line n = s.line n := by
  obtain ⟨ks, h⟩ := s.clearClaims_eq
  rw [h]
  rfl

theorem State.clearSubscriptions_lane (s : State) (l : Fin 16) : s.clearSubscriptions.lane l = s.lane l := by
  obtain ⟨ls, h⟩ := s.clearSubscriptions_eq
  rw [h]
  rfl

/-- What SOFT_RESET leaves: no entry, no item and no dispatch; lines and lanes as the clears leave them; all else as it was (R37,
R80, R97, R108, R152). -/
theorem reqSoftReset_eq (s : State) : ∃ ls ks,
    (reqSoftReset s).1 =
      { s with entries := Vector.replicate 64 Entry.free, due := [], dispatch := none, lines := ls, lanes := ks } ∧
      (∀ n : Fin 8, (reqSoftReset s).1.line n = { s.line n with subs := [] }) ∧
      ∀ l : Fin 16, (reqSoftReset s).1.lane l = (s.lane l).unclaimed := by
  generalize hu : (s.freeEntries.setDue []).setDispatch none = u
  have hr : (reqSoftReset s).1 = u.clearSubscriptions.clearClaims := hu ▸ rfl
  obtain ⟨ls, hls⟩ := u.clearSubscriptions_eq
  obtain ⟨ks, hks⟩ := u.clearSubscriptions.clearClaims_eq
  refine ⟨ls, ks, ?_, fun n => ?_, fun l => ?_⟩
  · rw [hr, hks, hls, ← hu]
    rfl
  · have hline : u.line n = s.line n := hu ▸ rfl
    rw [hr, State.clearClaims_line, State.clearSubscriptions_line, hline]
  · have hlane : u.lane l = s.lane l := hu ▸ rfl
    rw [hr, State.clearClaims_lane, State.clearSubscriptions_lane, hlane]

/-- With every entry FREE the attention set holds trip sources alone (R32, R130, R149). -/
theorem State.attnLow_iff_of_free {s : State} (hr : s.inReset = false) (h : ∀ e : Fin 64, s.entry e = Entry.free) :
    s.attnLow = true ↔ s.tripA.state ≠ .quiet ∨ s.tripB.state ≠ .quiet ∨ s.soft.state ≠ .quiet := by
  have hnone : ∀ e : Fin 64, (s.entry e).attention = false := fun e => by
    rw [h e]
    rfl
  simp [State.attnLow, State.attention, hr, hnone, or_assoc]

/-- Settles O52: the entries are freed whole, the clears work line by line and lane by lane, and nothing else is written. -/
theorem softResetFreesAndKeeps : Obligations.SoftResetFreesAndKeeps := by
  unfold Obligations.SoftResetFreesAndKeeps
  intro s tag hs
  obtain ⟨ls, ks, heq, hlines, hlanes⟩ := reqSoftReset_eq s
  have hexec : exec (.softReset tag) s = .next ((reqSoftReset s).1.answered (.softReset tag) .ok) :=
    congrArg Host.Outcome.next (request_answered hs rfl)
  rw [heq] at hexec hlines hlanes
  have hfree : ∀ e : Fin 64, (Vector.replicate 64 Entry.free)[e.val] = Entry.free := fun e => Vector.getElem_replicate _
  exact ⟨_, hexec, hfree, rfl, rfl, hlines, hlanes, rfl, ⟨rfl, rfl, rfl⟩, ⟨rfl, rfl, rfl, rfl⟩, rfl, rfl,
    State.attnLow_iff_of_free hs.1 hfree⟩

end Sys2Proof.Machine
end

section
/-! SUPPORT. No event of a run, a tick or a trip reads the response buffer, and none writes it: each commutes with a write of the
buffer (R146). -/

namespace Sys2Proof.Machine

namespace State

variable (s : State) (x : Buffer)

/-! ### Writes and choices -/

@[simp] theorem setEntry_setBuffer (e : Fin 64) (r : Entry) : (s.setBuffer x).setEntry e r = (s.setEntry e r).setBuffer x := rfl
@[simp] theorem setLine_setBuffer (n : Fin 8) (r : TriggerLine) :
    (s.setBuffer x).setLine n r = (s.setLine n r).setBuffer x := rfl
@[simp] theorem setLane_setBuffer (l : Fin 16) (r : Lane) : (s.setBuffer x).setLane l r = (s.setLane l r).setBuffer x := rfl
@[simp] theorem setStrobe_setBuffer (k : Fin 4) (r : StrobeLine) :
    (s.setBuffer x).setStrobe k r = (s.setStrobe k r).setBuffer x := rfl
@[simp] theorem setDispatch_setBuffer (d : Option DispatchWork) :
    (s.setBuffer x).setDispatch d = (s.setDispatch d).setBuffer x := rfl
@[simp] theorem setSoft_setBuffer (r : SoftSource) : (s.setBuffer x).setSoft r = (s.setSoft r).setBuffer x := rfl
@[simp] theorem setTrip_setBuffer (i : TripInput) (r : TripSource) :
    (s.setBuffer x).setTrip i r = (s.setTrip i r).setBuffer x := by cases i <;> rfl
@[simp] theorem removeDue_setBuffer (e : Fin 64) : (s.setBuffer x).removeDue e = (s.removeDue e).setBuffer x := rfl
@[simp] theorem joinDue_setBuffer (e : Fin 64) : (s.setBuffer x).joinDue e = (s.joinDue e).setBuffer x := rfl
@[simp] theorem unsubscribeFrom_setBuffer (n : Fin 8) (e : Fin 64) :
    (s.setBuffer x).unsubscribeFrom n e = (s.unsubscribeFrom n e).setBuffer x := rfl

/-- A choice between two parts with one buffer. -/
@[simp] theorem ite_setBuffer {c : Prop} [Decidable c] (t : State) :
    (if c then s.setBuffer x else t.setBuffer x) = (if c then s else t).setBuffer x :=
  (apply_ite (State.setBuffer · x) c s t).symm

/-- A step that commutes with a write of the buffer does so when it is repeated over a list. -/
theorem foldl_setBuffer {α : Type} {f : State → α → State} (hf : ∀ s a, f (s.setBuffer x) a = (f s a).setBuffer x)
    (l : List α) : l.foldl f (s.setBuffer x) = (l.foldl f s).setBuffer x := by
  induction l generalizing s with
  | nil => rfl
  | cons a l ih => rw [List.foldl_cons, hf, ih, List.foldl_cons]

/-! ### Lanes, subscriptions and strobe lines -/

@[simp] theorem unsubscribe_setBuffer (e : Fin 64) : (s.setBuffer x).unsubscribe e = (s.unsubscribe e).setBuffer x := by
  unfold State.unsubscribe
  rw [State.setBuffer_entry]
  rcases (s.entry e).start with _ | ⟨_ | _ | _⟩ <;> rfl

@[simp] theorem releaseLane_setBuffer (e : Fin 64) (taker : Option (Fin 64)) :
    (s.setBuffer x).releaseLane e taker = (s.releaseLane e taker).setBuffer x := by
  unfold State.releaseLane
  rw [State.setBuffer_entry]
  cases (s.entry e).prog.lane <;> rfl

@[simp] theorem handLevel_setBuffer (e : Fin 64) (c : Call) :
    (s.setBuffer x).handLevel e c = (s.handLevel e c).setBuffer x := by
  unfold State.handLevel
  rw [State.setBuffer_entry]
  cases (s.entry e).prog.lane with
  | none => rfl
  | some l =>
    dsimp only
    rw [State.setBuffer_lane]
    split <;> rfl

@[simp] theorem strobeRequest_setBuffer (k : Fin 4) (e : Fin 64) :
    (s.setBuffer x).strobeRequest k e = (s.strobeRequest k e).setBuffer x := by
  unfold State.strobeRequest
  rw [State.setBuffer_strobe]
  split <;> rfl

@[simp] theorem serveStrobe_setBuffer (e : Fin 64) (served : Bool) :
    (s.setBuffer x).serveStrobe e served = (s.serveStrobe e served).setBuffer x := by
  unfold State.serveStrobe
  rw [State.setBuffer_entry]
  cases (s.entry e).prog.strobe with
  | none => rfl
  | some u => simp

@[simp] theorem countdown_setBuffer (k : Fin 4) : (s.setBuffer x).countdown k = (s.countdown k).setBuffer x := by
  unfold State.countdown
  rw [State.setBuffer_strobe]
  split <;> rfl

/-! ### Retirement (section 2.5, section 7.4) -/

@[simp] theorem clearSuccessor_setBuffer (p e : Fin 64) :
    (s.setBuffer x).clearSuccessor p e = (s.clearSuccessor p e).setBuffer x := by
  unfold State.clearSuccessor
  rw [State.setBuffer_entry]
  split <;> rfl

@[simp] theorem unlinkPredecessor_setBuffer (e : Fin 64) :
    (s.setBuffer x).unlinkPredecessor e = (s.unlinkPredecessor e).setBuffer x := by
  unfold State.unlinkPredecessor
  rw [State.setBuffer_entry]
  cases (s.entry e).predecessor with
  | none => rfl
  | some p => exact s.clearSuccessor_setBuffer x p e

@[simp] theorem unlink_setBuffer (p y : Fin 64) : (s.setBuffer x).unlink p y = (s.unlink p y).setBuffer x := by
  simp [State.unlink]

@[simp] theorem retireOne_setBuffer (e : Fin 64) (oc : EntryOutcome) (taker : Option (Fin 64)) :
    (s.setBuffer x).retireOne e oc taker = (s.retireOne e oc taker).setBuffer x := by
  simp [State.retireOne]

@[simp] theorem breakFrom_setBuffer (k : Nat) (y : Option (Fin 64)) :
    (s.setBuffer x).breakFrom k y = (s.breakFrom k y).setBuffer x := by
  induction k generalizing s y with
  | zero => rfl
  | succ k ih =>
    cases y with
    | none => rfl
    | some y =>
      unfold State.breakFrom
      rw [State.setBuffer_entry]
      cases (s.entry y).successor <;> simp [ih]

@[simp] theorem breakBehind_setBuffer (e : Fin 64) : (s.setBuffer x).breakBehind e = (s.breakBehind e).setBuffer x := by
  unfold State.breakBehind
  rw [State.setBuffer_entry]
  cases (s.entry e).successor <;> simp

@[simp] theorem retireBroken_setBuffer (e : Fin 64) (oc : EntryOutcome) :
    (s.setBuffer x).retireBroken e oc = (s.retireBroken e oc).setBuffer x := by
  simp [State.retireBroken]

/-! ### Running (chapter 3, section 7.3) -/

@[simp] theorem insertItem_setBuffer (e : Fin 64) : (s.setBuffer x).insertItem e = (s.insertItem e).setBuffer x := by
  simp [State.insertItem]

@[simp] theorem follow_setBuffer (e : Fin 64) (served : Bool) :
    (s.setBuffer x).follow e served = (s.follow e served).setBuffer x := by
  simp [State.follow]

@[simp] theorem startInEvent_setBuffer (e : Fin 64) (start : Instant) (unserved : Bool) :
    (s.setBuffer x).startInEvent e start unserved = (s.startInEvent e start unserved).setBuffer x := by
  simp [State.startInEvent]

@[simp] theorem startSuccessor_setBuffer (p y : Fin 64) (start : Instant) :
    (s.setBuffer x).startSuccessor p y start = (s.startSuccessor p y start).setBuffer x := by
  simp [State.startSuccessor]

@[simp] theorem retireWell_setBuffer (e : Fin 64) (oc : EntryOutcome) (start : Instant) :
    (s.setBuffer x).retireWell e oc start = (s.retireWell e oc start).setBuffer x := by
  unfold State.retireWell
  rw [State.setBuffer_entry]
  cases (s.entry e).successor <;> simp

@[simp] theorem actStart_setBuffer (e : Fin 64) (r : Entry) (t : Instant) :
    (s.setBuffer x).actStart e r t = (s.actStart e r t).setBuffer x := by
  simp [State.actStart]

@[simp] theorem actInside_setBuffer (e : Fin 64) (r : Entry) (t : Instant) (o : Nat) :
    (s.setBuffer x).actInside e r t o = (s.actInside e r t o).setBuffer x := by
  simp [State.actInside]

@[simp] theorem actNewCycle_setBuffer (e : Fin 64) (r : Entry) (t : Instant) :
    (s.setBuffer x).actNewCycle e r t = (s.actNewCycle e r t).setBuffer x := by
  simp [State.actNewCycle]

@[simp] theorem returnToPending_setBuffer (e : Fin 64) :
    (s.setBuffer x).returnToPending e = (s.returnToPending e).setBuffer x := by
  simp [State.returnToPending]

@[simp] theorem afterRun_setBuffer (e : Fin 64) (t : Instant) (served : Bool) :
    (s.setBuffer x).afterRun e t served = (s.afterRun e t served).setBuffer x := by
  unfold State.afterRun
  dsimp only
  rw [State.setBuffer_entry]
  split
  · exact s.retireWell_setBuffer x e .drained t
  · rcases (s.entry e).start with _ | ⟨_ | ⟨n, m, p⟩ | _⟩
    case some.onTrigger => cases m <;> cases (s.entry e).heldTrigger <;> simp
    all_goals exact s.retireWell_setBuffer x e .completed t

@[simp] theorem actFinal_setBuffer (e : Fin 64) (r : Entry) (t : Instant) :
    (s.setBuffer x).actFinal e r t = (s.actFinal e r t).setBuffer x := by
  simp [State.actFinal]

@[simp] theorem actRunning_setBuffer (e : Fin 64) (t : Instant) :
    (s.setBuffer x).actRunning e t = (s.actRunning e t).setBuffer x := by
  simp [State.actRunning]

@[simp] theorem takeAction_setBuffer (e : Fin 64) (t : Instant) :
    (s.setBuffer x).takeAction e t = (s.takeAction e t).setBuffer x := by
  unfold State.takeAction
  dsimp only
  rw [State.removeDue_setBuffer, State.setBuffer_entry]
  cases ((s.removeDue e).entry e).state <;> simp

/-! ### Trigger lines (chapter 5) -/

@[simp] theorem triggerStart_setBuffer (n : Fin 8) (e : Fin 64) (mode : Mode) (stamp : Instant) :
    (s.setBuffer x).triggerStart n e mode stamp = (s.triggerStart n e mode stamp).setBuffer x := by
  cases mode <;> simp [State.triggerStart]

@[simp] theorem retrigger_setBuffer (e : Fin 64) (policy : Retrigger) (stamp : Instant) :
    (s.setBuffer x).retrigger e policy stamp = (s.retrigger e policy stamp).setBuffer x := by
  cases policy with
  | ignore => rfl
  | restart => exact s.startInEvent_setBuffer x e stamp true
  | holdOne =>
    unfold State.retrigger
    dsimp only
    rw [State.setBuffer_entry]
    split <;> rfl

@[simp] theorem visit_setBuffer (n : Fin 8) (stamp : Instant) (e : Fin 64) :
    (s.setBuffer x).visit n stamp e = (s.visit n stamp e).setBuffer x := by
  unfold State.visit
  rw [State.setBuffer_entry]
  rcases (s.entry e).start with _ | ⟨_ | ⟨m, mode, policy⟩ | _⟩
  case some.onTrigger => cases (s.entry e).state <;> cases mode <;> simp
  all_goals rfl

@[simp] theorem walk_setBuffer (n : Fin 8) (stamp : Instant) : (s.setBuffer x).walk n stamp = (s.walk n stamp).setBuffer x :=
  s.foldl_setBuffer x (fun t e => t.visit_setBuffer x n stamp e) _

@[simp] theorem acceptChange_setBuffer (n : Fin 8) (level : Level) :
    (s.setBuffer x).acceptChange n level = (s.acceptChange n level).setBuffer x := by
  simp [State.acceptChange]

@[simp] theorem filterSample_setBuffer (n : Fin 8) (level : Level) :
    (s.setBuffer x).filterSample n level = (s.filterSample n level).setBuffer x := by
  unfold State.filterSample
  dsimp only
  rw [State.setBuffer_line]
  cases (s.line n).accepted <;> simp

@[simp] theorem takeSample_setBuffer (n : Fin 8) (level : Level) :
    (s.setBuffer x).takeSample n level = (s.takeSample n level).setBuffer x := by
  simp [State.takeSample]

/-! ### The dispatch and the tick event (section 4.4, R2) -/

@[simp] theorem overrunOne_setBuffer : (s.setBuffer x).overrunOne = s.overrunOne.setBuffer x := by
  have hhead : (s.setBuffer x).overdueHead = s.overdueHead := rfl
  unfold State.overrunOne
  rw [hhead]
  cases s.overdueHead <;> simp

@[simp] theorem overrunStep_setBuffer (k : Nat) : (s.setBuffer x).overrunStep k = (s.overrunStep k).setBuffer x := by
  induction k generalizing s with
  | zero => rfl
  | succ k ih => rw [State.overrunStep, State.overrunOne_setBuffer, ih, State.overrunStep]

@[simp] theorem actionOne_setBuffer : (s.setBuffer x).actionOne = s.actionOne.setBuffer x := by
  have hitem : (s.setBuffer x).nextItem = s.nextItem := rfl
  unfold State.actionOne
  rw [hitem, State.setBuffer_dispatch]
  cases s.dispatch <;> cases s.nextItem <;> simp

@[simp] theorem actionStep_setBuffer (k : Nat) : (s.setBuffer x).actionStep k = (s.actionStep k).setBuffer x := by
  induction k generalizing s with
  | zero => rfl
  | succ k ih => rw [State.actionStep, State.actionOne_setBuffer, ih, State.actionStep]

@[simp] theorem finishDispatch_setBuffer : (s.setBuffer x).finishDispatch = s.finishDispatch.setBuffer x := by
  simp [State.finishDispatch]

@[simp] theorem takeUnit_setBuffer (u : TickUnit) : (s.setBuffer x).takeUnit u = (s.takeUnit u).setBuffer x := by
  cases u with
  | dispatch => exact s.finishDispatch_setBuffer x
  | sample n => exact s.takeSample_setBuffer x n _
  | countdown k => exact s.countdown_setBuffer x k

/-- The whole of a tick event does not rest on the response buffer (R2). -/
@[simp] theorem settle_setBuffer : (s.setBuffer x).settle = s.settle.setBuffer x := by
  unfold State.settle State.takeUnits
  exact s.foldl_setBuffer x (fun t u => t.takeUnit_setBuffer x u) tickUnits

/-! ### Trips (section 8.3) -/

theorem laneStep_setBuffer (trip : Trip) : (s.setBuffer x).laneStep trip = (s.laneStep trip).setBuffer x :=
  s.foldl_setBuffer x (fun _ _ => rfl) _

theorem entryStep_setBuffer (recorded : List (Fin 64)) :
    (s.setBuffer x).entryStep recorded = (s.entryStep recorded).setBuffer x := by
  unfold State.entryStep
  dsimp only
  rw [s.foldl_setBuffer x (fun t e => t.retireOne_setBuffer x e .tripped none),
    State.foldl_setBuffer _ x (fun t e => t.breakBehind_setBuffer x e)]

@[simp] theorem takeTrips_setBuffer (trips : List Trip) : (s.setBuffer x).takeTrips trips = (s.takeTrips trips).setBuffer x := by
  have hrecorded : (s.setBuffer x).recordedBy trips = s.recordedBy trips := rfl
  unfold State.takeTrips
  rw [hrecorded, s.foldl_setBuffer x (fun t trip => t.laneStep_setBuffer x trip), State.entryStep_setBuffer]

theorem releaseTrip_setBuffer (src : TripId) : (s.setBuffer x).releaseTrip src = (s.releaseTrip src).setBuffer x :=
  s.foldl_setBuffer x (fun _ _ => rfl) _

theorem clearSource_setBuffer (src : TripId) : (s.setBuffer x).clearSource src = (s.clearSource src).setBuffer x := by
  unfold State.clearSource
  cases src <;> simp [State.releaseTrip_setBuffer]

theorem clearSubscriptions_setBuffer : (s.setBuffer x).clearSubscriptions = s.clearSubscriptions.setBuffer x :=
  s.foldl_setBuffer x (fun _ _ => rfl) _

theorem clearClaims_setBuffer : (s.setBuffer x).clearClaims = s.clearClaims.setBuffer x :=
  s.foldl_setBuffer x (fun _ _ => rfl) _

end State

/-! ### Requests (R146) -/

/-- Two answers of an owner that differ in the response buffer of the part alone. -/
def AlikeButBuffer (x : Buffer) (r' r : State × Answer) : Prop := r' = (r.1.setBuffer x, r.2)

namespace AlikeButBuffer

variable {x : Buffer}

/-- A choice that does not rest on the buffer. -/
theorem ite {c : Prop} [Decidable c] {r₁' r₁ r₂' r₂ : State × Answer} (h₁ : AlikeButBuffer x r₁' r₁)
    (h₂ : AlikeButBuffer x r₂' r₂) : AlikeButBuffer x (if c then r₁' else r₂') (if c then r₁ else r₂) := by
  split
  · exact h₁
  · exact h₂

theorem withEntry {s : State} {b : Byte} {f' f : Fin 64 → State × Answer} (h : ∀ e, AlikeButBuffer x (f' e) (f e)) :
    AlikeButBuffer x (withEntry b (s.setBuffer x) f') (withEntry b s f) := by
  unfold Machine.withEntry
  cases entryOf b with
  | none => rfl
  | some e => exact h e

/-- One answer on two states that differ in the buffer alone. -/
theorem of_eq {t t' : State} (h : t' = t.setBuffer x) (a : Answer) : AlikeButBuffer x (t', a) (t, a) := h ▸ rfl

end AlikeButBuffer

section Requests

variable (s : State) (x : Buffer)

theorem reqSchedule_setBuffer (entry kind : Byte) (block : StartBlock) :
    AlikeButBuffer x (reqSchedule entry kind block (s.setBuffer x)) (reqSchedule entry kind block s) := by
  cases hf : startFieldsOf kind block with
  | none =>
    unfold reqSchedule
    rw [hf]
    exact .withEntry fun _ => .ite rfl rfl
  | some f =>
    obtain ⟨hok, herror⟩ := reqSchedule_of_startFields hf entry s
    obtain ⟨hok', herror'⟩ := reqSchedule_of_startFields hf entry (s.setBuffer x)
    rw [State.scheduleMember_setBuffer] at hok' herror'
    cases hm : s.scheduleMember f entry with
    | ok t => rw [hok t hm, hok' (t.setBuffer x) (by rw [hm]; rfl)]; rfl
    | error st => rw [herror st hm, herror' st (by rw [hm]; rfl)]; rfl

theorem reqScheduleSet_setBuffer (count kind : Byte) (block : StartBlock) (members : List Byte) :
    AlikeButBuffer x (reqScheduleSet count kind block members (s.setBuffer x)) (reqScheduleSet count kind block members s) := by
  refine .ite rfl (.ite rfl ?_)
  cases setStartOf kind block with
  | none => rfl
  | some f =>
    dsimp only
    rw [State.scheduleMembers_setBuffer]
    cases s.scheduleMembers f 0 members <;> rfl

theorem reqDefine_setBuffer (entry lane : Byte) (d w p : Ticks) (n : Count) (strobe notify : Byte) :
    AlikeButBuffer x (reqDefine entry lane d w p n strobe notify (s.setBuffer x))
      (reqDefine entry lane d w p n strobe notify s) := by
  refine .withEntry fun e => .ite ?_ rfl
  cases programmeOf lane d w p n strobe notify with
  | none => rfl
  | some p => exact .ite rfl rfl

theorem reqAmend_setBuffer (entry mask : Byte) (d w p : Ticks) (n : Count) :
    AlikeButBuffer x (reqAmend entry mask d w p n (s.setBuffer x)) (reqAmend entry mask d w p n s) :=
  .withEntry fun _ => .ite (.ite rfl (.ite rfl (.ite rfl rfl)))
    (.ite (.ite rfl (.ite rfl (.ite rfl (.ite rfl rfl)))) rfl)

theorem reqDrain_setBuffer (entry : Byte) : AlikeButBuffer x (reqDrain entry (s.setBuffer x)) (reqDrain entry s) :=
  .withEntry fun e => .ite rfl (.ite (.of_eq (s.retireWell_setBuffer x e .drained s.now) .ok) rfl)

theorem reqCancel_setBuffer (entry : Byte) : AlikeButBuffer x (reqCancel entry (s.setBuffer x)) (reqCancel entry s) :=
  .withEntry fun e => .ite (.of_eq (s.retireBroken_setBuffer x e .cancelled) .ok) rfl

theorem reqAck_setBuffer (entry : Byte) : AlikeButBuffer x (reqAck entry (s.setBuffer x)) (reqAck entry s) :=
  .withEntry fun _ => .ite rfl rfl

theorem reqRelease_setBuffer (entry : Byte) : AlikeButBuffer x (reqRelease entry (s.setBuffer x)) (reqRelease entry s) :=
  .withEntry fun _ => .ite rfl rfl

theorem reqTriggerConfig_setBuffer (line edge sd k : Byte) :
    AlikeButBuffer x (reqTriggerConfig line edge sd k (s.setBuffer x)) (reqTriggerConfig line edge sd k s) := by
  unfold reqTriggerConfig
  cases lineOf line <;> cases edgeOf edge <;> cases sampleDividerOf sd <;> cases depthOf k <;> rfl

theorem reqLaneConfig_setBuffer (lane polarity safe : Byte) :
    AlikeButBuffer x (reqLaneConfig lane polarity safe (s.setBuffer x)) (reqLaneConfig lane polarity safe s) := by
  unfold reqLaneConfig
  cases laneOf lane <;> cases polarityOf polarity <;> cases pinLevelOf safe
  case some.some.some => exact .ite rfl rfl
  all_goals rfl

theorem reqLaneSet_setBuffer (lane value : Byte) :
    AlikeButBuffer x (reqLaneSet lane value (s.setBuffer x)) (reqLaneSet lane value s) := by
  unfold reqLaneSet
  cases laneOf lane <;> cases forcedOf value
  case some.some => exact .ite rfl (.ite rfl rfl)
  all_goals rfl

theorem reqLaneQuery_setBuffer (lane : Byte) : AlikeButBuffer x (reqLaneQuery lane (s.setBuffer x)) (reqLaneQuery lane s) := by
  unfold reqLaneQuery
  cases laneOf lane <;> rfl

theorem reqStrobeConfig_setBuffer (strobe width : Byte) :
    AlikeButBuffer x (reqStrobeConfig strobe width (s.setBuffer x)) (reqStrobeConfig strobe width s) := by
  unfold reqStrobeConfig
  cases strobeLineOf strobe with
  | none => rfl
  | some k => exact .ite rfl rfl

theorem reqTripConfig_setBuffer (source enabled al k : Byte) (g : LaneGroup) :
    AlikeButBuffer x (reqTripConfig source enabled al k g (s.setBuffer x)) (reqTripConfig source enabled al k g s) := by
  unfold reqTripConfig
  cases tripInputOf source <;> cases yesNoOf enabled <;> cases levelOf al <;> cases depthOf k
  case some.some.some.some i en al k => exact .ite rfl (.of_eq (s.setTrip_setBuffer x i _) .ok)
  all_goals rfl

theorem reqTrip_setBuffer (g : LaneGroup) : AlikeButBuffer x (reqTrip g (s.setBuffer x)) (reqTrip g s) :=
  .ite rfl (.of_eq ((s.setSoft (s.soft.tripped g)).takeTrips_setBuffer x [⟨.soft, s.soft.newly g⟩]) .ok)

theorem reqClearTrip_setBuffer (source : Byte) :
    AlikeButBuffer x (reqClearTrip source (s.setBuffer x)) (reqClearTrip source s) := by
  have hstate : ∀ src, (s.setBuffer x).tripState src = s.tripState src := fun src => by cases src <;> rfl
  unfold reqClearTrip
  cases tripIdOfByte source with
  | none => rfl
  | some src =>
    dsimp only
    rw [hstate, State.clearSource_setBuffer]
    cases s.tripState src <;> rfl

theorem reqSoftReset_setBuffer : AlikeButBuffer x (reqSoftReset (s.setBuffer x)) (reqSoftReset s) := by
  refine .of_eq ?_ .ok
  have hfree : (((s.setBuffer x).freeEntries.setDue []).setDispatch none) =
      ((s.freeEntries.setDue []).setDispatch none).setBuffer x := rfl
  rw [hfree, State.clearSubscriptions_setBuffer, State.clearClaims_setBuffer]

end Requests

/-- What the owner of a request does, and what it answers, do not rest on the response buffer (R146). -/
theorem serve_setBuffer {c : Instr} {s : State} {r : State × Answer} (h : serve c s = some r) (x : Buffer) :
    serve c (s.setBuffer x) = some (r.1.setBuffer x, r.2) := by
  have hsome : ∀ {r' : State × Answer}, AlikeButBuffer x r' r → some r' = some (r.1.setBuffer x, r.2) := fun h => congrArg some h
  cases c <;> cases h
  case nop | readTime | summary => rfl
  case query => exact hsome (.withEntry fun _ => rfl)
  case setTime v => exact hsome (.ite rfl rfl)
  case setDivider m => exact hsome (.ite rfl (.ite rfl rfl))
  case define => exact hsome (reqDefine_setBuffer s x _ _ _ _ _ _ _ _)
  case schedule => exact hsome (reqSchedule_setBuffer s x _ _ _)
  case scheduleSet => exact hsome (reqScheduleSet_setBuffer s x _ _ _ _)
  case amend => exact hsome (reqAmend_setBuffer s x _ _ _ _ _ _)
  case drain => exact hsome (reqDrain_setBuffer s x _)
  case cancel => exact hsome (reqCancel_setBuffer s x _)
  case ack => exact hsome (reqAck_setBuffer s x _)
  case release => exact hsome (reqRelease_setBuffer s x _)
  case triggerConfig => exact hsome (reqTriggerConfig_setBuffer s x _ _ _ _)
  case laneConfig => exact hsome (reqLaneConfig_setBuffer s x _ _ _)
  case laneSet => exact hsome (reqLaneSet_setBuffer s x _ _)
  case laneQuery => exact hsome (reqLaneQuery_setBuffer s x _)
  case strobeConfig => exact hsome (reqStrobeConfig_setBuffer s x _ _)
  case tripConfig => exact hsome (reqTripConfig_setBuffer s x _ _ _ _ _)
  case trip => exact hsome (reqTrip_setBuffer s x _)
  case clearTrip => exact hsome (reqClearTrip_setBuffer s x _)
  case softReset => exact hsome (reqSoftReset_setBuffer s x)

end Sys2Proof.Machine
end

section
/-! CERTIFICATE. The take point of a request and the end of its execution, one after the other and as one command (R146; log entry
2). -/

namespace Sys2Proof.Machine

/-- A request taken at its take point is answered, once its execution ends, as its owner answered it (R146). -/
theorem State.endExecution_takeRequest (s : State) (c : Instr) (own : State → State × Answer) :
    (s.takeRequest c own).endExecution = (own s.settle).1.setBuffer (.ready (responseFrame c.tag (own s.settle).2)) := rfl

section Served

variable {s : State} {c : Instr} {own : State → State × Answer} (hc : ∀ s, serve c s = some (own s))
include hc

/-- The end of the execution of a request that waits is its owner's answer, in a READY buffer (R146). -/
theorem State.endExecution_of_waiting (hb : s.link.buffer = .executing (.waiting c)) :
    s.endExecution = (own s.settle).1.setBuffer (.ready (responseFrame c.tag (own s.settle).2)) := by
  have hserved : s.serveSettled c = own s.settle := by
    unfold State.serveSettled
    rw [hc]
    rfl
  unfold State.endExecution
  rw [hb]
  dsimp only
  rw [hserved]

/-- A whole request on a part with an empty buffer (log entry 2). -/
theorem State.wholeRequest_of_empty :
    (s.setBuffer .empty).wholeRequest c own = (own s.settle).1.setBuffer (.ready (responseFrame c.tag (own s.settle).2)) := by
  have hown : own (s.setBuffer .empty).settle = ((own s.settle).1.setBuffer .empty, (own s.settle).2) := by
    rw [State.settle_setBuffer]
    exact Option.some.inj ((hc _).symm.trans (serve_setBuffer (hc s.settle) .empty))
  rw [State.wholeRequest, State.endExecution_of_not_executing (s := s.setBuffer .empty) rfl, hown]
  rfl

end Served

/-- Settles O26: the three ways to the response are one owner's answer on the part with the whole of its tick event. -/
theorem takePointThenEnd : Obligations.TakePointThenEnd := by
  unfold Obligations.TakePointThenEnd
  intro s c hr hreq hb
  obtain ⟨own, hc, hexec⟩ := exec_of_isRequest hreq
  have htake : s.request c own = s.takeRequest c own := (State.whenRunning_of_running hr _).trans (if_pos hb)
  have hreset : (s.takeRequest c own).inReset = false := by
    obtain ⟨hpins, -⟩ := (serve_served (hc s.settle)).surroundings
    obtain ⟨-, -, hsettled, -⟩ := s.settle_outside
    change decide ((own s.settle).1.pins.resetN = .low) = false
    rw [hpins, hsettled]
    exact hr
  refine ⟨s.takeRequest c own, by rw [hexec, htake], rfl, ?_, ?_⟩
  · rw [exec_executionEnd_of_running hreset, exec_executionEnd_of_running hr, State.endExecution_takeRequest,
      State.endExecution_of_waiting hc hb]
  · rw [hexec, State.request_of_not_waiting (s := s.setBuffer .empty) hr nofun, State.wholeRequest_of_empty hc,
      exec_executionEnd_of_running hr, State.endExecution_of_waiting hc hb]

end Sys2Proof.Machine
end

section
/-! SUPPORT. The values that the bytes of a request name (Table 10-5): for each encoding, which bytes name a value, and which value
each of them names. -/

namespace Sys2Proof.Machine

-- Proofs one at a time, here and in the sections below, as in the tests: each thread's stack counts against the check's memory.
set_option Elab.async false

/-! ### Numbers -/

/-- The byte of a number in range names the number. -/
theorem number_of_eq {k : Nat} {b : Byte} {n : Fin k} (h : n.val = b.toNat) :
    (if hb : b.toNat < k then some (⟨b.toNat, hb⟩ : Fin k) else none) = some n := by
  rw [dif_pos (h ▸ n.isLt)]
  exact congrArg some (Fin.ext h.symm)

/-- Only a byte in range names a number. -/
theorem lt_of_number {k : Nat} {b : Byte} {n : Fin k}
    (h : (if hb : b.toNat < k then some (⟨b.toNat, hb⟩ : Fin k) else none) = some n) : b.toNat < k :=
  (Option.dite_none_right_eq_some.mp h).1

/-! ### Enumerations: two, three or four values, from 0 on -/

section Values

variable {α : Type} (b : Byte) (w x y z : α)

theorem twoValues_eq :
    (if b = 0 then some w else if b = 1 then some x else none) =
      if b.toNat ≤ 1 then some (if b = 0 then w else x) else none := by
  by_cases h : b.toNat ≤ 1
  · obtain rfl | rfl : b = 0 ∨ b = 1 := by bv_omega
    all_goals rfl
  · rw [if_neg h, if_neg, if_neg] <;> bv_omega

theorem threeValues_eq :
    (if b = 0 then some w else if b = 1 then some x else if b = 2 then some y else none) =
      if b.toNat ≤ 2 then some (if b = 0 then w else if b = 1 then x else y) else none := by
  by_cases h : b.toNat ≤ 2
  · obtain rfl | rfl | rfl : b = 0 ∨ b = 1 ∨ b = 2 := by bv_omega
    all_goals rfl
  · rw [if_neg h, if_neg, if_neg, if_neg] <;> bv_omega

theorem fourValues_eq :
    (if b = 0 then some w else if b = 1 then some x else if b = 2 then some y else if b = 3 then some z else none) =
      if b.toNat ≤ 3 then some (if b = 0 then w else if b = 1 then x else if b = 2 then y else z) else none := by
  by_cases h : b.toNat ≤ 3
  · obtain rfl | rfl | rfl | rfl : b = 0 ∨ b = 1 ∨ b = 2 ∨ b = 3 := by bv_omega
    all_goals rfl
  · rw [if_neg h, if_neg, if_neg, if_neg, if_neg] <;> bv_omega

end Values

theorem edgeOf_eq (b : Byte) : edgeOf b =
    if b.toNat ≤ 3 then some (if b = 0 then .none else if b = 1 then .rising else if b = 2 then .falling else .both)
    else none := fourValues_eq b _ _ _ _

theorem polarityOf_eq (b : Byte) :
    polarityOf b = if b.toNat ≤ 1 then some (if b = 0 then .activeHigh else .activeLow) else none := twoValues_eq b _ _

theorem pinLevelOf_eq (b : Byte) :
    pinLevelOf b = if b.toNat ≤ 2 then some (if b = 0 then .low else if b = 1 then .high else .float) else none :=
  threeValues_eq b _ _ _

theorem forcedOf_eq (b : Byte) : forcedOf b =
    if b.toNat ≤ 3 then
      some (if b = 0 then none else if b = 1 then some .active else if b = 2 then some .inactive else some .float)
    else none := fourValues_eq b _ _ _ _

theorem levelOf_eq (b : Byte) : levelOf b = if b.toNat ≤ 1 then some (if b = 0 then .low else .high) else none :=
  twoValues_eq b _ _

theorem tripInputOf_eq (b : Byte) : tripInputOf b = if b.toNat ≤ 1 then some (if b = 0 then .a else .b) else none :=
  twoValues_eq b _ _

theorem tripIdOfByte_eq (b : Byte) :
    tripIdOfByte b = if b.toNat ≤ 2 then some (if b = 0 then .a else if b = 1 then .b else .soft) else none :=
  threeValues_eq b _ _ _

/-- Only a byte that passes the check of its field names a value. -/
theorem named_of_eq {α : Type} {o : Option α} {p : Prop} [Decidable p] {v w : α} (ho : o = if p then some v else none)
    (h : o = some w) : p := (Option.ite_none_right_eq_some.mp (ho ▸ h)).1

end Sys2Proof.Machine
end

section
/-! CERTIFICATE. The time requests (R8, R9, R10, R12, R13, R155). -/

namespace Sys2Proof.Machine

set_option Elab.async false

/-- The timebase is busy while an entry is PENDING, RUNNING or DRAINING (R9). -/
theorem State.timebaseBusy_iff (s : State) : s.timebaseBusy = true ↔
    ∃ e : Fin 64, (s.entry e).state = .pending ∨ (s.entry e).state = .running ∨ (s.entry e).state = .draining := by
  simp [State.timebaseBusy, Entry.scheduled_iff]

/-- Settles O32: each request is its owner's answer, and a busy timebase is an entry that is scheduled. -/
theorem timeRequests : Obligations.TimeRequests := by
  unfold Obligations.TimeRequests
  intro s tag b3 b2 b1 b0 hs
  dsimp only
  refine ⟨rfl, rfl, rfl, congrArg Host.Outcome.next (request_answered hs rfl), congrArg Host.Outcome.next ?_,
    congrArg Host.Outcome.next ?_⟩
  · simp only [← State.timebaseBusy_iff]
    exact request_answered_ite hs rfl fun hown => request_answered hs hown
  · simp only [← State.timebaseBusy_iff, ← Nat.lt_one_iff]
    exact request_answered_ite hs rfl fun hown => request_answered_ite hs hown fun hown => request_answered hs hown

end Sys2Proof.Machine
end

section
/-! CERTIFICATE. The requests that carry one entry number (R160): BAD_ENTRY, then the states of Table 10-9. -/

namespace Sys2Proof.Machine

set_option Elab.async false

/-- A request whose owner takes it or refuses it ENTRY_STATE (R160). -/
theorem exec_of_entryState {s u : State} (hs : s.Steady) {c : Instr} {own : State → State × Answer}
    (hexec : exec c s = .next (s.request c own)) {taken : Bool}
    (hown : own s = if taken = true then (u, .ok) else (s, .refusal .entryState)) :
    ∃ t, exec c s = .next t ∧ if taken = true then t.link.buffer = .ready (frameOf 0x00 c.tag [])
      else t = s.answered c ⟨.entryState, []⟩ := by
  refine ⟨_, hexec, ?_⟩
  cases taken with
  | true =>
    rw [request_answered hs hown]
    rfl
  | false => exact request_answered hs hown

/-- DRAIN of an entry: RUNNING, or PENDING with an EVERY start, and no other state (R59, R60, Table 10-9). -/
theorem reqDrain_of_entry {e : Byte} {i : Fin 64} (hi : i.val = e.toNat) (s : State) : ∃ u,
    reqDrain e s = if ((s.entry i).state = .running || ((s.entry i).state = .pending && (s.entry i).isEvery)) = true
      then (u, .ok) else (s, .refusal .entryState) := by
  have hdrain : reqDrain e s = _ := withEntry_of_eq hi s _
  rw [hdrain]
  by_cases hr : (s.entry i).state = .running
  · exact ⟨_, by rw [if_pos hr, if_pos (by simp [hr])]⟩
  · refine ⟨s.retireWell i .drained s.now, ?_⟩
    simp only [if_neg hr, decide_eq_false hr, Bool.false_or, Bool.and_eq_true, decide_eq_true_eq]

/-- Settles O41: each request is judged at the entry its byte names, by the states it takes. -/
theorem singleEntryRequestChecks : Obligations.SingleEntryRequestChecks := by
  unfold Obligations.SingleEntryRequestChecks
  intro s tag e hs
  refine ⟨rfl, rfl, rfl, rfl, rfl, fun he c hc => ?_, fun i hi => ?_⟩
  · have hbad : ∀ f, withEntry e s f = (s, .refusal .badEntry) := withEntry_of_large he s
    simp only [List.mem_cons, List.not_mem_nil, or_false] at hc
    rcases hc with rfl | rfl | rfl | rfl | rfl <;> exact congrArg Host.Outcome.next (request_answered hs (hbad _))
  · dsimp only
    obtain ⟨u, hdrain⟩ := reqDrain_of_entry hi s
    refine ⟨exec_of_entryState hs rfl hdrain, exec_of_entryState hs rfl (withEntry_of_eq hi s _),
      exec_of_entryState hs rfl (u := s.setEntry i (s.entry i).acknowledged) ?_,
      exec_of_entryState hs rfl (u := s.setEntry i Entry.free) ?_,
      _, congrArg Host.Outcome.next (request_answered hs (withEntry_of_eq hi s _)), rfl, ?_, rfl⟩
    · simp only [decide_eq_true_eq]
      exact withEntry_of_eq hi s _
    · simp only [Bool.or_eq_true, decide_eq_true_eq]
      exact withEntry_of_eq hi s _
    · exact (length_frameOf _ _ _).trans (congrArg (· + 4) (length_queryPayload i _))

end Sys2Proof.Machine
end

section
/-! CERTIFICATE. TRIGGER_CONFIG and STROBE_CONFIG (R95, R96, R112, R162). -/

namespace Sys2Proof.Machine

set_option Elab.async false

/-- The record of a line that a TRIGGER_CONFIG leaves, in closed form; a line with no sample owed owes none (R95, R96). -/
theorem TriggerLine.configure_eq {r : TriggerLine} (hdue : r.sampleDue = false) (edge : EdgeSelect) (sd k : Nat) :
    r.configure edge sd k =
      let kept := r.sampleDivider = sd ∧ r.depth = k
      { r with
        edge := edge
        sampleDivider := sd
        depth := k
        sampleCount := if kept then r.sampleCount else 0
        accepted := if kept then r.accepted else none
        runLength := if kept then r.runLength else 0 } := by
  unfold TriggerLine.configure
  dsimp only
  by_cases hkept : r.sampleDivider = sd ∧ r.depth = k
  · simp only [if_pos hkept]
  · simp only [if_neg hkept, TriggerLine.restarted, hdue]

theorem reqTriggerConfig_of_out_of_range {line edge sd k : Byte}
    (h : 7 < line.toNat ∨ 3 < edge.toNat ∨ sd = 0 ∨ 16 < sd.toNat ∨ k = 0 ∨ 15 < k.toNat) (s : State) :
    reqTriggerConfig line edge sd k s = (s, .refusal .paramRange) := by
  unfold reqTriggerConfig
  split
  · next hline hedge hsd hk =>
    have h1 := lt_of_number hline
    have h2 := named_of_eq (edgeOf_eq edge) hedge
    have h3 : 1 ≤ sd.toNat ∧ sd.toNat ≤ 16 := named_of_eq rfl hsd
    have h4 : 1 ≤ k.toNat ∧ k.toNat ≤ 15 := named_of_eq rfl hk
    bv_omega
  · rfl

theorem reqTriggerConfig_of_in_range {line edge sd k : Byte} {n : Fin 8} (hn : n.val = line.toNat) (he : edge.toNat ≤ 3)
    (hsd : 1 ≤ sd.toNat ∧ sd.toNat ≤ 16) (hk : 1 ≤ k.toNat ∧ k.toNat ≤ 15) (s : State) :
    reqTriggerConfig line edge sd k s = (s.setLine n ((s.line n).configure
      (if edge = 0 then .none else if edge = 1 then .rising else if edge = 2 then .falling else .both)
      sd.toNat k.toNat), .ok) := by
  have hline : lineOf line = some n := number_of_eq hn
  have hdivider : sampleDividerOf sd = some sd.toNat := if_pos hsd
  have hdepth : depthOf k = some k.toNat := if_pos hk
  simp only [reqTriggerConfig, hline, edgeOf_eq, if_pos he, hdivider, hdepth]

theorem reqStrobeConfig_of_out_of_range {strobe width : Byte} (h : 3 < strobe.toNat ∨ width = 0) (s : State) :
    reqStrobeConfig strobe width s = (s, .refusal .paramRange) := by
  unfold reqStrobeConfig
  split
  · next hstrobe => exact if_pos (h.resolve_left (Nat.not_lt.mpr (Nat.le_of_lt_succ (lt_of_number hstrobe))))
  · rfl

theorem reqStrobeConfig_of_in_range {strobe width : Byte} {k : Fin 4} (hk : k.val = strobe.toNat) (hw : width ≠ 0)
    (s : State) :
    reqStrobeConfig strobe width s = (s.setStrobe k { s.strobe k with width := width.toNat }, .ok) := by
  have hstrobe : strobeLineOf strobe = some k := number_of_eq hk
  simp only [reqStrobeConfig, hstrobe, if_neg hw]

/-- Settles O46: the bytes name the configuration where each is in range, and a steady part owes no sample. -/
theorem triggerAndStrobeConfig : Obligations.TriggerAndStrobeConfig := by
  unfold Obligations.TriggerAndStrobeConfig
  intro s tag l b1 b2 b3 hs
  dsimp only
  refine ⟨rfl, rfl, fun h => ?_, fun h => ?_, fun n hn he h1 h2 h3 h4 => ?_, fun k hk hw => ?_⟩ <;>
    refine congrArg Host.Outcome.next (request_answered hs ?_)
  · exact reqTriggerConfig_of_out_of_range h s
  · exact reqStrobeConfig_of_out_of_range h s
  · obtain ⟨-, ⟨-, hdue, -⟩, -⟩ := hs
    rw [reqTriggerConfig_of_in_range hn he ⟨h1, h2⟩ ⟨h3, h4⟩, TriggerLine.configure_eq (hdue n)]
    rfl
  · exact reqStrobeConfig_of_in_range hk hw s

end Sys2Proof.Machine
end

section
/-! SUPPORT. The encodings of the values that a response carries (Table 10-5), in closed form. -/

namespace Sys2Proof.Machine

set_option Elab.async false

theorem Polarity.byte_eq (p : Polarity) : p.byte = if p = .activeHigh then 0 else 1 := by cases p <;> rfl

theorem PinLevel.byte_eq (l : PinLevel) : l.byte = if l = .low then 0 else if l = .high then 1 else 2 := by cases l <;> rfl

theorem Call.byte_eq (c : Call) : c.byte = if c = .inactive then 0 else 1 := by cases c <;> rfl

theorem forcedByte_eq (f : Option Forced) : forcedByte f =
    if f = none then 0 else if f = some .active then 1 else if f = some .inactive then 2 else 3 := by
  rcases f with _ | _ | _ | _ <;> rfl

/-- Bit n of a byte of flags stands for its n-th flag. -/
theorem flagByte_eq (b0 b1 b2 b3 : Bool) : flagByte b0 b1 b2 b3 =
    (if b0 then 1 else 0) + (if b1 then 2 else 0) + (if b2 then 4 else 0) + (if b3 then 8 else 0) := by
  revert b0 b1 b2 b3
  decide

theorem flagByte_three_eq (b0 b1 b2 : Bool) : flagByte b0 b1 b2 false =
    (if b0 then 1 else 0) + (if b1 then 2 else 0) + (if b2 then 4 else 0) :=
  (flagByte_eq b0 b1 b2 false).trans (BitVec.add_zero _)

/-- The byte of a number is the byte that names it. -/
theorem ofNat_of_eq {n : Nat} {b : Byte} (h : n = b.toNat) : BitVec.ofNat 8 n = b := by
  rw [h, BitVec.ofNat_toNat, BitVec.setWidth_eq]

end Sys2Proof.Machine
end

section
/-! CERTIFICATE. LANE_CONFIG, LANE_SET and LANE_QUERY (R104, R105, R107, R163). -/

namespace Sys2Proof.Machine

set_option Elab.async false

theorem reqLaneConfig_of_out_of_range {lane polarity safe : Byte}
    (h : 15 < lane.toNat ∨ 1 < polarity.toNat ∨ 2 < safe.toNat) (s : State) :
    reqLaneConfig lane polarity safe s = (s, .refusal .paramRange) := by
  unfold reqLaneConfig
  split
  · next hlane hpolarity hsafe =>
    have h1 := lt_of_number hlane
    have h2 := named_of_eq (polarityOf_eq polarity) hpolarity
    have h3 := named_of_eq (pinLevelOf_eq safe) hsafe
    omega
  · rfl

theorem reqLaneConfig_of_in_range {lane polarity safe : Byte} {n : Fin 16} (hn : n.val = lane.toNat)
    (hp : polarity.toNat ≤ 1) (hsafe : safe.toNat ≤ 2) (s : State) :
    reqLaneConfig lane polarity safe s =
      if (s.lane n).owner ≠ none then (s, .refusal .laneBusy)
      else (s.setLane n { s.lane n with
        polarity := if polarity = 0 then .activeHigh else .activeLow
        safeLevel := if safe = 0 then .low else if safe = 1 then .high else .float }, .ok) := by
  have hlane : laneOf lane = some n := number_of_eq hn
  simp only [reqLaneConfig, hlane, polarityOf_eq, if_pos hp, pinLevelOf_eq, if_pos hsafe]

theorem reqLaneSet_of_out_of_range {lane value : Byte} (h : 15 < lane.toNat ∨ 3 < value.toNat) (s : State) :
    reqLaneSet lane value s = (s, .refusal .paramRange) := by
  unfold reqLaneSet
  split
  · next hlane hvalue =>
    have h1 := lt_of_number hlane
    have h2 := named_of_eq (forcedOf_eq value) hvalue
    omega
  · rfl

theorem reqLaneSet_of_in_range {lane value : Byte} {n : Fin 16} (hn : n.val = lane.toNat) (hv : value.toNat ≤ 3)
    (s : State) :
    reqLaneSet lane value s =
      if (s.lane n).trippedBy ≠ TrippedBy.empty then (s, .refusal .laneTripped)
      else if (s.lane n).owner ≠ none then (s, .refusal .laneBusy)
      else (s.setLane n { s.lane n with
        forced := if value = 0 then none else if value = 1 then some .active else if value = 2 then some .inactive
          else some .float }, .ok) := by
  have hlane : laneOf lane = some n := number_of_eq hn
  simp only [reqLaneSet, hlane, forcedOf_eq, if_pos hv, TrippedBy.any_iff]

theorem reqLaneQuery_of_out_of_range {lane : Byte} (h : 15 < lane.toNat) (s : State) :
    reqLaneQuery lane s = (s, .refusal .paramRange) := by
  have hlane : laneOf lane = none := dif_neg (Nat.not_lt.mpr h)
  simp only [reqLaneQuery, hlane]

theorem reqLaneQuery_of_in_range {lane : Byte} {n : Fin 16} (hn : n.val = lane.toNat) (s : State) :
    reqLaneQuery lane s = (s, ⟨.ok, laneQueryPayload n (s.lane n)⟩) := by
  have hlane : laneOf lane = some n := number_of_eq hn
  simp only [reqLaneQuery, hlane]

/-- Settles O47: each request is judged by what its bytes name and then by the lane's record, whose 9 bytes LANE_QUERY gives. -/
theorem laneRequests : Obligations.LaneRequests := by
  unfold Obligations.LaneRequests
  intro s tag l b1 b2 hs
  dsimp only
  refine ⟨rfl, rfl, rfl, fun h => ?_, fun h => ?_, fun h => ?_, fun n hn => ⟨fun h1 h2 => ?_, fun h1 => ?_, ?_⟩⟩
  · exact congrArg Host.Outcome.next (request_answered hs (reqLaneConfig_of_out_of_range h s))
  · exact congrArg Host.Outcome.next (request_answered hs (reqLaneSet_of_out_of_range h s))
  · exact congrArg Host.Outcome.next (request_answered hs (reqLaneQuery_of_out_of_range h s))
  · exact congrArg Host.Outcome.next (request_answered_ite hs (reqLaneConfig_of_in_range hn h1 h2 s) fun hown =>
      request_answered hs hown)
  · exact congrArg Host.Outcome.next (request_answered_ite hs (reqLaneSet_of_in_range hn h1 s) fun hown =>
      request_answered_ite hs hown fun hown => request_answered hs hown)
  · refine ⟨_, congrArg Host.Outcome.next (request_answered hs (reqLaneQuery_of_in_range hn s)), rfl, ?_, rfl⟩
    rw [← Polarity.byte_eq, ← PinLevel.byte_eq, ← Call.byte_eq, ← forcedByte_eq, ← PinLevel.byte_eq, ← flagByte_three_eq]
    exact congrArg (fun b => [0x00, tag, 0x09, b] ++ (laneQueryPayload n (s.lane n)).tail) (ofNat_of_eq hn)

end Sys2Proof.Machine
end

section
/-! CERTIFICATE. TRIP_CONFIG, TRIP and CLEAR_TRIP (R135, R136, R137, R164). -/

namespace Sys2Proof.Machine

set_option Elab.async false

/-! ### TRIP_CONFIG -/

/-- The record of a source that a TRIP_CONFIG leaves, in closed form (R137). -/
theorem TripSource.configure_eq (r : TripSource) (en : Bool) (al : Level) (k : Nat) (g : LaneGroup) :
    r.configure en al k g =
      let kept := r.enabled = true ∧ en = true ∧ r.activeLevel = al ∧ r.depth = k
      { r with
        enabled := en
        activeLevel := al
        depth := k
        group := g
        inputState := if kept then r.inputState else .inactive
        runLength := if kept then r.runLength else 0 } := by
  unfold TripSource.configure TripSource.keepsFilter
  simp only [Bool.and_eq_true, decide_eq_true_eq, and_assoc]
  by_cases hkept : r.enabled = true ∧ en = true ∧ r.activeLevel = al ∧ r.depth = k
  · simp only [if_pos hkept]
  · simp only [if_neg hkept, TripSource.restarted]

theorem reqTripConfig_of_out_of_range {source en al k : Byte}
    (h : 1 < source.toNat ∨ 1 < en.toNat ∨ 1 < al.toNat ∨ k = 0 ∨ 15 < k.toNat) (g : LaneGroup) (s : State) :
    reqTripConfig source en al k g s = (s, .refusal .paramRange) := by
  unfold reqTripConfig
  split
  · next hsource hen hal hk =>
    have h1 := named_of_eq (tripInputOf_eq source) hsource
    have h2 := named_of_eq (yesNoOf_eq en) hen
    have h3 := named_of_eq (levelOf_eq al) hal
    have h4 : 1 ≤ k.toNat ∧ k.toNat ≤ 15 := named_of_eq rfl hk
    bv_omega
  · rfl

theorem tripInputOf_of_eq {source : Byte} {i : TripInput} (h : source = if i = .a then 0 else 1) :
    tripInputOf source = some i := by
  subst h
  cases i <;> rfl

theorem reqTripConfig_of_in_range {source en al k : Byte} {i : TripInput} (hi : source = if i = .a then 0 else 1)
    (hen : en.toNat ≤ 1) (hal : al.toNat ≤ 1) (hk : 1 ≤ k.toNat ∧ k.toNat ≤ 15) (g : LaneGroup) (s : State) :
    reqTripConfig source en al k g s =
      if (s.trip i).state ≠ .quiet then (s, .refusal .tripActive)
      else (s.setTrip i ((s.trip i).configure (decide (en = 1)) (if al = 0 then .low else .high) k.toNat g), .ok) := by
  have hdepth : depthOf k = some k.toNat := if_pos hk
  simp only [reqTripConfig, tripInputOf_of_eq hi, yesNoOf_eq, if_pos hen, levelOf_eq, if_pos hal, hdepth]

/-! ### TRIP -/

/-- A group is empty exactly where both its bytes are 0 (R154). -/
theorem ofBytes2_eq_zero_iff (b1 b0 : Byte) : ofBytes2 b1 b0 = 0 ↔ b1 = 0 ∧ b0 = 0 := by
  constructor
  · intro h
    have h1 : (ofBytes2 b1 b0).extractLsb' 8 8 = b1 := BitVec.extractLsb'_append_eq_left
    have h0 : (ofBytes2 b1 b0).extractLsb' 0 8 = b0 := BitVec.extractLsb'_append_eq_right
    rw [h] at h1 h0
    exact ⟨h1.symm, h0.symm⟩
  · rintro ⟨rfl, rfl⟩
    rfl

/-! ### CLEAR_TRIP -/

section Clear

variable {source : Byte} {src : TripId} (hsrc : tripIdOfByte source = some src) (s : State)
include hsrc

theorem reqClearTrip_of_held (h : s.tripState src = .held) :
    reqClearTrip source s = (s, .refusal .tripActive) := by simp only [reqClearTrip, hsrc, h]

theorem reqClearTrip_of_quiet (h : s.tripState src = .quiet) : reqClearTrip source s = (s, .ok) := by
  simp only [reqClearTrip, hsrc, h]

theorem reqClearTrip_of_latched (h : s.tripState src = .latched) : reqClearTrip source s = (s.clearSource src, .ok) := by
  simp only [reqClearTrip, hsrc, h]

end Clear

theorem reqClearTrip_of_out_of_range {source : Byte} (h : 2 < source.toNat) (s : State) :
    reqClearTrip source s = (s, .refusal .paramRange) := by
  have hsource : tripIdOfByte source = none := (tripIdOfByte_eq source).trans (if_neg (Nat.not_le.mpr h))
  simp only [reqClearTrip, hsource]

/-- The record of a source once it is cleared (R136). -/
def State.quieted (s : State) : TripId → State
  | .a => s.setTrip .a { s.tripA with state := .quiet }
  | .b => s.setTrip .b { s.tripB with state := .quiet }
  | .soft => s.setSoft { group := 0, state := .quiet }

/-- The clear writes the source and the lanes, each of which the source leaves (R136). -/
theorem State.clearSource_eq (s : State) (src : TripId) : ∃ ls, s.clearSource src = { s.quieted src with lanes := ls } ∧
    ∀ l : Fin 16, (s.clearSource src).lane l = { s.lane l with trippedBy := (s.lane l).trippedBy.remove src } := by
  have hclear : s.clearSource src = (s.quieted src).releaseTrip src := by cases src <;> rfl
  obtain ⟨ls, hls⟩ := (s.quieted src).releaseTrip_eq src
  refine ⟨ls, hclear.trans hls, fun l => ?_⟩
  rw [hclear, State.releaseTrip_lane]
  cases src <;> rfl

/-- Settles O49: TRIP_CONFIG and CLEAR_TRIP are judged by the state of the source that their byte names, TRIP by its group. -/
theorem tripRequests : Obligations.TripRequests := by
  unfold Obligations.TripRequests
  intro s tag src en al k g1 g0 hs
  dsimp only
  have hclear : ∀ {t a}, reqClearTrip src s = (t, a) →
      exec (.clearTrip tag src) s = .next (t.answered (.clearTrip tag src) a) := fun h =>
    congrArg Host.Outcome.next (request_answered hs h)
  refine ⟨rfl, rfl, rfl, fun h => ?_, fun h1 h0 => ?_, fun h => ?_, fun h => ?_, fun i _ hi => ?_, fun hi => ?_⟩
  · exact congrArg Host.Outcome.next (request_answered hs (reqTripConfig_of_out_of_range h _ s))
  · exact congrArg Host.Outcome.next (request_answered hs (if_pos ((ofBytes2_eq_zero_iff g1 g0).mpr ⟨h1, h0⟩)))
  · have hne := mt (ofBytes2_eq_zero_iff g1 g0).mp h
    exact ⟨_, congrArg Host.Outcome.next (request_answered hs (reqTrip_of_ne_zero hne s)), rfl⟩
  · exact hclear (reqClearTrip_of_out_of_range h s)
  · have hsrc : tripIdOfByte src = some (tripIdOf i) := by
      subst hi
      cases i <;> rfl
    have hstate : s.tripState (tripIdOf i) = (s.trip i).state := by cases i <;> rfl
    refine ⟨fun hen hal h1 h15 => ?_, fun h => ?_, fun h => ?_, fun h => ?_⟩
    · have hown := reqTripConfig_of_in_range hi hen hal ⟨h1, h15⟩ (ofBytes2 g1 g0) s
      simp only [TripSource.configure_eq, decide_eq_true_eq] at hown
      exact congrArg Host.Outcome.next (request_answered_ite hs hown fun hown => request_answered hs hown)
    · exact hclear (reqClearTrip_of_held hsrc s (hstate.trans h))
    · exact hclear (reqClearTrip_of_quiet hsrc s (hstate.trans h))
    · obtain ⟨ls, heq, hlanes⟩ := s.clearSource_eq (tripIdOf i)
      have hexec := hclear (reqClearTrip_of_latched hsrc s (hstate.trans h))
      rw [heq] at hexec hlanes
      cases i <;> exact ⟨_, hexec, rfl, hlanes, rfl, rfl, rfl, rfl, rfl, rfl, rfl⟩
  · have hsrc : tripIdOfByte src = some .soft := hi ▸ rfl
    refine ⟨fun h => hclear (reqClearTrip_of_held hsrc s h), fun h => hclear (reqClearTrip_of_quiet hsrc s h), fun h => ?_⟩
    obtain ⟨ls, heq, hlanes⟩ := s.clearSource_eq .soft
    have hexec := hclear (reqClearTrip_of_latched hsrc s h)
    rw [heq] at hexec hlanes
    exact ⟨_, hexec, rfl, hlanes, rfl, rfl, rfl, rfl, rfl⟩

end Sys2Proof.Machine
end

section
/-! CERTIFICATE. The checks of SCHEDULE in their order (R157): the start fields, the chain, the claim on the lane, the time. -/

namespace Sys2Proof.Machine

set_option Elab.async false

/-! ### The start fields (check 3) -/

/-- The fields of a start block that name a start, by its kind (Table 10-7, R24). -/
abbrev StartFieldsOk (kind : Byte) (b : StartBlock) : Prop :=
  (kind = 1 ∧ b.b4.toNat ≤ 1) ∨ (kind = 2 ∧ b.b0.toNat ≤ 7 ∧ (b.b1 = 0 ∨ (b.b1 = 1 ∧ b.b2.toNat ≤ 2))) ∨ kind = 3

theorem modeOf_eq (b : Byte) : modeOf b = if b.toNat ≤ 1 then some (if b = 0 then .once else .every) else none :=
  twoValues_eq b _ _

/-- A mode and a policy name a start where the mode is ONCE, or EVERY with a policy in range (R24). -/
theorem retriggerFor_isSome_iff (mode policy : Byte) :
    ((modeOf mode).bind fun m => retriggerFor m policy).isSome = true ↔ mode = 0 ∨ (mode = 1 ∧ policy.toNat ≤ 2) := by
  rw [modeOf_eq]
  by_cases h0 : mode = 0
  · subst h0
    exact iff_of_true rfl (.inl rfl)
  by_cases h1 : mode = 1
  · subst h1
    have hpolicy : retriggerOf policy = _ := threeValues_eq policy _ _ _
    change (retriggerOf policy).isSome = true ↔ _
    rw [hpolicy]
    by_cases hp : policy.toNat ≤ 2 <;> simp [hp]
  · have hlarge : ¬ mode.toNat ≤ 1 := by bv_omega
    rw [if_neg hlarge]
    exact iff_of_false nofun fun h => h.elim h0 fun h => h1 h.1

/-- A start block names a start exactly where its fields do (R157, check 3). -/
theorem startFieldsOf_isSome_iff (kind : Byte) (b : StartBlock) : (startFieldsOf kind b).isSome = true ↔ StartFieldsOk kind b := by
  unfold startFieldsOf StartFieldsOk
  by_cases h1 : kind = 1
  · subst h1
    rw [if_pos rfl, yesNoOf_eq]
    by_cases hl : b.b4.toNat ≤ 1 <;> simp [hl]
  by_cases h2 : kind = 2
  · subst h2
    rw [if_neg h1, if_pos rfl, ← lineOf_isSome_iff, ← retriggerFor_isSome_iff]
    cases lineOf b.b0 with
    | none => simp
    | some n => cases modeOf b.b1 <;> simp
  · rw [if_neg h1, if_neg h2]
    by_cases h3 : kind = 3
    · rw [if_pos h3]
      exact iff_of_true rfl (.inr (.inr h3))
    · rw [if_neg h3]
      exact iff_of_false nofun fun h => h.elim (fun h => h1 h.1) fun h => h.elim (fun h => h2 h.1) h3

/-- The start that a start block names is of the kind given (Table 10-7). -/
theorem startFieldsOf_kind {kind : Byte} {b : StartBlock} {f : StartFields} (h : startFieldsOf kind b = some f) :
    (kind = 1 ∧ b.b4.toNat ≤ 1 ∧ f = .atTime (ofBytes4 b.b0 b.b1 b.b2 b.b3) (decide (b.b4 = 1))) ∨
      (kind = 2 ∧ ∃ n m r, f = .onTrigger n m r) ∨ (kind = 3 ∧ f = .after b.b0) := by
  unfold startFieldsOf at h
  split_ifs at h with h1 h2 h3
  · rw [yesNoOf_eq] at h
    split_ifs at h with hl
    · exact .inl ⟨h1, hl, (Option.some.inj h).symm⟩
    · cases h
  · simp only [Option.bind_eq_some_iff, Option.map_eq_some_iff] at h
    obtain ⟨n, -, m, -, r, -, rfl⟩ := h
    exact .inr (.inl ⟨h2, n, m, r, rfl⟩)
  · exact .inr (.inr ⟨h3, (Option.some.inj h).symm⟩)

/-! ### The chain (check 4) -/

/-- Entry `p` can stand before entry `e` (R115). -/
theorem State.chainValid_iff (s : State) (e p : Fin 64) : s.chainValid e p = true ↔ p ≠ e ∧ (s.entry p).successor = none ∧
    ((s.entry p).state = .pending ∨ (s.entry p).state = .running ∨ (s.entry p).state = .draining) := by
  simp only [State.chainValid, Bool.and_eq_true, decide_eq_true_eq, Entry.scheduled_iff]
  tauto

/-- An AFTER start is resolved where the entry it names can stand before the one scheduled (R115, R157). -/
theorem State.resolveStart_after (s : State) (e : Fin 64) (b : Byte) :
    (∃ p : Fin 64, p.val = b.toNat ∧ s.chainValid e p = true ∧ s.resolveStart e (.after b) = .ok (.after p)) ∨
      (¬ ∃ p : Fin 64, p.val = b.toNat ∧ s.chainValid e p = true) ∧
        s.resolveStart e (.after b) = .error .chainInvalid := by
  unfold State.resolveStart
  dsimp only
  by_cases hb : b.toNat < 64
  · have hp : entryOf b = some ⟨b.toNat, hb⟩ := dif_pos hb
    rw [hp]
    by_cases hv : s.chainValid e ⟨b.toNat, hb⟩ = true
    · exact .inl ⟨_, rfl, hv, if_pos hv⟩
    · refine .inr ⟨?_, if_neg hv⟩
      rintro ⟨p, hpb, hpv⟩
      obtain rfl : p = ⟨b.toNat, hb⟩ := Fin.ext hpb
      exact hv hpv
  · have hp : entryOf b = none := dif_neg hb
    rw [hp]
    exact .inr ⟨fun ⟨p, hpb, _⟩ => hb (hpb ▸ p.isLt), rfl⟩

/-! ### The claim (checks 5 to 7) -/

/-- A claim as heir is open on the lane: its owner is the predecessor that the start names, and it has no heir (R117). -/
abbrev Lane.HeirClaim (l : Lane) (start : Start) : Prop := l.heir = none ∧ l.ownedByPredecessor start = true

/-- The claim on a lane, check by check (R101, R117, R157). -/
theorem Lane.claim_eq (l : Lane) (e : Fin 64) (start : Start) : l.claim e start =
    if l.trippedBy ≠ TrippedBy.empty then .error .laneTripped
    else if ¬ l.HeirClaim start ∧ (l.owner ≠ none ∨ l.heir ≠ none) then .error .laneBusy
    else if l.owner = none ∧ l.forced ≠ none then .error .laneForced
    else .ok (if l.HeirClaim start then { l with heir := some e } else l.claimedBy e) := by
  have howned : l.ownedByPredecessor start = true → l.owner ≠ none := fun h => by
    cases start <;> simp_all [Lane.ownedByPredecessor]
  unfold Lane.claim
  simp only [TrippedBy.any_iff]
  by_cases ht : l.trippedBy ≠ TrippedBy.empty
  · rw [if_pos ht, if_pos ht]
  rw [if_neg ht, if_neg ht]
  by_cases hh : l.heir ≠ none
  · rw [if_pos hh, if_pos ⟨fun h => hh h.1, .inr hh⟩]
  rw [if_neg hh]
  by_cases hp : l.ownedByPredecessor start = true
  · have hclaim : l.HeirClaim start := ⟨not_not.mp hh, hp⟩
    rw [if_pos hp, if_neg fun h => h.1 hclaim, if_neg fun h => howned hp h.1, if_pos hclaim]
  have hclaim : ¬ l.HeirClaim start := fun h => hp h.2
  rw [if_neg hp]
  by_cases ho : l.owner ≠ none
  · rw [if_pos ho, if_pos ⟨hclaim, .inl ho⟩]
  have hbusy : ¬ (¬ l.HeirClaim start ∧ (l.owner ≠ none ∨ l.heir ≠ none)) := fun h => h.2.elim ho hh
  rw [if_neg ho, if_neg hbusy, if_neg hclaim]
  simp only [not_not.mp ho, true_and]

/-- The lane that an entry's programme names has the property given; a silent entry names none (R19). -/
abbrev State.NamedLane (s : State) (e : Fin 64) (P : Lane → Prop) : Prop :=
  ∃ l : Fin 16, (s.entry e).prog.lane = some l ∧ P (s.lane l)

/-- The claim of an entry, check by check (R101, R117, R157). -/
theorem State.claimLane_checks (s : State) (e : Fin 64) (start : Start) :
    let tripped := s.NamedLane e fun l => l.trippedBy ≠ TrippedBy.empty
    let busy := s.NamedLane e fun l => ¬ l.HeirClaim start ∧ (l.owner ≠ none ∨ l.heir ≠ none)
    let forced := s.NamedLane e fun l => l.owner = none ∧ l.forced ≠ none
    (tripped → s.claimLane e start = .error .laneTripped) ∧
    (¬ tripped → busy → s.claimLane e start = .error .laneBusy) ∧
    (¬ tripped → ¬ busy → forced → s.claimLane e start = .error .laneForced) ∧
    (¬ tripped → ¬ busy → ¬ forced → ∃ u, s.claimLane e start = .ok u) := by
  unfold State.claimLane State.NamedLane
  cases (s.entry e).prog.lane with
  | none => simp
  | some l =>
    simp only [Option.some.injEq, exists_eq_left', Lane.claim_eq]
    refine ⟨fun ht => ?_, fun ht hb => ?_, fun ht hb hf => ?_, fun ht hb hf => ?_⟩
    · rw [if_pos ht]
    · rw [if_neg ht, if_pos hb]
    · rw [if_neg ht, if_neg hb, if_pos hf]
    · rw [if_neg ht, if_neg hb, if_neg hf]
      exact ⟨_, rfl⟩

/-! ### The time (check 8) -/

/-- An AT_TIME start of a lawful block is late where T is past and `late_ok` is no (R23). -/
theorem State.timePast_iff {s : State} {late : Byte} (h : late.toNat ≤ 1) (t : Instant) :
    s.timePast (.atTime t (decide (late = 1))) = true ↔ late = 0 ∧ signedDiff t s.now < 0 := by
  have hno : ¬ late = 1 ↔ late = 0 := by bv_omega
  simp only [State.timePast, Bool.and_eq_true, isPast_iff, Bool.not_eq_true', decide_eq_false_iff_not, hno, and_comm]

/-! ### The request -/

section Request

variable {s u : State} (hs : s.Steady) {e kind : Byte} {i : Fin 64} (hi : i.val = e.toNat) {b : StartBlock} {f : StartFields}
  (hidle : (s.entry i).state = .idle) (hf : startFieldsOf kind b = some f) (tag : Byte)
include hs hi

/-- SCHEDULE of an entry that is not IDLE is refused (R22, R157). -/
theorem exec_schedule_of_not_idle (h : (s.entry i).state ≠ .idle) :
    exec (.schedule tag e kind b) s = .next (s.answered (.schedule tag e kind b) ⟨.entryState, []⟩) :=
  congrArg Host.Outcome.next (request_answered hs ((withEntry_of_eq hi _ _).trans (if_neg h)))

include hidle

/-- SCHEDULE whose bytes name no start is refused (R157). -/
theorem exec_schedule_of_no_start (h : startFieldsOf kind b = none) :
    exec (.schedule tag e kind b) s = .next (s.answered (.schedule tag e kind b) ⟨.paramRange, []⟩) := by
  refine congrArg Host.Outcome.next (request_answered hs ((withEntry_of_eq hi _ _).trans ((if_pos hidle).trans ?_)))
  rw [h]
  rfl

include hf

/-- SCHEDULE that fails a check after its start fields is refused with that check's status (R157). -/
theorem exec_schedule_of_error {st : Status} (h : s.scheduleChecked i f = .error st) :
    exec (.schedule tag e kind b) s = .next (s.answered (.schedule tag e kind b) ⟨st, []⟩) := by
  refine congrArg Host.Outcome.next (request_answered hs ((withEntry_of_eq hi _ _).trans ((if_pos hidle).trans ?_)))
  rw [hf]
  dsimp only
  rw [h]
  rfl

end Request

/-- The checks of SCHEDULE from the claim on, once the chain has passed (R157). -/
theorem State.scheduleChecked_of_start {s : State} {e : Fin 64} {f : StartFields} {start : Start}
    (h : s.resolveStart e f = .ok start) :
    (∀ st, s.claimLane e start = .error st → s.scheduleChecked e f = .error st) ∧
      ∀ u, s.claimLane e start = .ok u → s.timePast start = true → s.scheduleChecked e f = .error .timePast := by
  unfold State.scheduleChecked
  rw [h]
  dsimp only
  exact ⟨fun st hc => by rw [hc], fun u hc ht => by rw [hc]; exact if_pos ht⟩

/-- What the later checks of SCHEDULE turn on, in the bytes of the block, for the start that these name (R115, R117, R157). -/
theorem State.resolveStart_bytes {s : State} {i : Fin 64} {kind : Byte} {b : StartBlock} {f : StartFields}
    (hf : startFieldsOf kind b = some f) :
    (kind = 3 ∧ (¬ ∃ p : Fin 64, p.val = b.b0.toNat ∧ s.chainValid i p = true) ∧ s.resolveStart i f = .error .chainInvalid) ∨
    ∃ start, s.resolveStart i f = .ok start ∧
      (kind = 3 → ∃ p : Fin 64, p.val = b.b0.toNat ∧ s.chainValid i p = true) ∧
      (∀ l : Lane, l.HeirClaim start ↔
        kind = 3 ∧ l.heir = none ∧ ∃ p : Fin 64, p.val = b.b0.toNat ∧ l.owner = some p) ∧
      (s.timePast start = true ↔
        kind = 1 ∧ b.b4 = 0 ∧ signedDiff (ofBytes4 b.b0 b.b1 b.b2 b.b3) s.now < 0) := by
  rcases startFieldsOf_kind hf with ⟨rfl, hlate, rfl⟩ | ⟨rfl, n, m, r, rfl⟩ | ⟨rfl, rfl⟩
  · refine .inr ⟨_, rfl, nofun, fun l => iff_of_false (fun h => nomatch h.2) nofun, ?_⟩
    rw [State.timePast_iff hlate, eq_self, true_and]
  · exact .inr ⟨_, rfl, nofun, fun l => iff_of_false (fun h => nomatch h.2) nofun, iff_of_false nofun nofun⟩
  · rcases s.resolveStart_after i b.b0 with ⟨p, hpb, hpv, hstart⟩ | ⟨hnone, herror⟩
    · refine .inr ⟨_, hstart, fun _ => ⟨p, hpb, hpv⟩, fun l => ?_, iff_of_false nofun nofun⟩
      have hnamed : (∃ q : Fin 64, q.val = b.b0.toNat ∧ l.owner = some q) ↔ l.owner = some p :=
        ⟨fun ⟨q, hq, ho⟩ => Fin.ext (hq.trans hpb.symm) ▸ ho, fun ho => ⟨p, hpb, ho⟩⟩
      simp [hnamed, Lane.HeirClaim, Lane.ownedByPredecessor]
    · exact .inl ⟨rfl, hnone, herror⟩

/-- Settles O34: each check is decided by what the bytes name, in the order in which the model makes them. -/
theorem scheduleChecksInOrder : Obligations.ScheduleChecksInOrder := by
  unfold Obligations.ScheduleChecksInOrder
  intro s tag e kind b hs
  refine ⟨fun he => congrArg Host.Outcome.next (request_answered hs (withEntry_of_large he _ _)), fun i hi => ?_⟩
  dsimp only
  by_cases hidle : (s.entry i).state ≠ .idle
  · rw [if_pos hidle]
    exact exec_schedule_of_not_idle hs hi tag hidle
  rw [if_neg hidle]
  replace hidle := not_not.mp hidle
  by_cases hfields : ¬ StartFieldsOk kind b
  · rw [if_pos hfields]
    exact exec_schedule_of_no_start hs hi hidle tag
      (Option.not_isSome_iff_eq_none.mp (mt (startFieldsOf_isSome_iff kind b).mp hfields))
  rw [if_neg hfields]
  obtain ⟨f, hf⟩ := Option.isSome_iff_exists.mp ((startFieldsOf_isSome_iff kind b).mpr (not_not.mp hfields))
  simp only [← State.chainValid_iff]
  rcases s.resolveStart_bytes (i := i) hf with ⟨h3, hchain, herror⟩ | ⟨start, hstart, hchain, hheir, htime⟩
  · rw [if_pos ⟨h3, hchain⟩]
    exact exec_schedule_of_error hs hi hidle hf tag (by rw [State.scheduleChecked, herror])
  rw [if_neg fun h => h.2 (hchain h.1)]
  simp only [← hheir, ← htime]
  obtain ⟨herror, hlate⟩ := State.scheduleChecked_of_start hstart
  obtain ⟨h5, h6, h7, hok⟩ := s.claimLane_checks i start
  split_ifs with ht hb hforced hl
  · exact exec_schedule_of_error hs hi hidle hf tag (herror _ (h5 ht))
  · exact exec_schedule_of_error hs hi hidle hf tag (herror _ (h6 ht hb))
  · exact exec_schedule_of_error hs hi hidle hf tag (herror _ (h7 ht hb hforced))
  · obtain ⟨u, hu⟩ := hok ht hb hforced
    exact exec_schedule_of_error hs hi hidle hf tag (hlate u hu hl)
  · obtain ⟨u, hu⟩ := hok ht hb hforced
    exact ⟨_, exec_schedule_of_accepted hs hi hidle hf hstart hu (Bool.eq_false_iff.mpr hl) tag, rfl⟩

end Sys2Proof.Machine
end

section
/-! CERTIFICATE. NOP, SUMMARY and SOFT_RESET (R149, R150, R165): the bits and bytes of SUMMARY, against ATTN_N. -/

namespace Sys2Proof.Machine

set_option Elab.async false

/-! ### Sets of entries as bytes (R165) -/

/-- Bit n of a set of entries, built up entry by entry. -/
theorem foldl_entrySet_getLsbD (p : Fin 64 → Bool) (es : List (Fin 64)) (x : BitVec 64) (n : Fin 64) :
    (es.foldl (fun acc e => if p e then acc ||| (1#64 <<< e.val) else acc) x).getLsbD n.val =
      (x.getLsbD n.val || (decide (n ∈ es) && p n)) := by
  induction es generalizing x with
  | nil => simp
  | cons e es ih =>
    rw [List.foldl_cons, ih]
    by_cases hn : n = e
    · subst hn
      cases p n <;> simp
    · have hbit : (1#64 <<< e.val).getLsbD n.val = false := by
        have hne : n.val ≠ e.val := fun h => hn (Fin.ext h)
        have hrange : ¬ n.val < e.val → n.val - e.val ≠ 0 := by omega
        by_cases hlt : n.val < e.val <;> simp [hlt, hrange]
      have hsame : (if p e then x ||| (1#64 <<< e.val) else x).getLsbD n.val = x.getLsbD n.val := by
        split
        · rw [BitVec.getLsbD_or, hbit, Bool.or_false]
        · rfl
      rw [hsame]
      simp [hn]

/-- Bit n of a set of entries stands for entry n (R165). -/
theorem entrySet_getLsbD (p : Fin 64 → Bool) (n : Fin 64) : (entrySet p).getLsbD n.val = p n := by
  unfold entrySet
  rw [foldl_entrySet_getLsbD]
  simp

/-- Byte k of a 64-bit set, the most significant first. -/
theorem bytes8_getD (x : BitVec 64) (k : Fin 8) : (bytes8 x).getD k.val 0 = x.extractLsb' (8 * (7 - k.val)) 8 := by
  fin_cases k <;> rfl

theorem bytes8_append_getD (x : BitVec 64) (rest : List Byte) (k : Fin 8) :
    (bytes8 x ++ rest).getD k.val 0 = (bytes8 x).getD k.val 0 := List.getD_append _ _ _ _ k.isLt

/-- The place of bit n of a 64-bit set in its bytes. -/
theorem bytes8_getLsbD (x : BitVec 64) (n : Fin 64) : ((bytes8 x).getD (7 - n.val / 8) 0).getLsbD (n.val % 8) = x.getLsbD n.val := by
  have hn := n.isLt
  have hmod := Nat.mod_lt n.val (show 0 < 8 by decide)
  rw [bytes8_getD x ⟨7 - n.val / 8, by omega⟩, BitVec.getLsbD_extractLsb', decide_eq_true hmod, Bool.true_and]
  congr 1
  dsimp only
  omega

/-- A set of entries has a byte other than 0 exactly where it has a member (R165). -/
theorem bytes8_entrySet_ne_zero_iff (p : Fin 64 → Bool) :
    (∃ k : Fin 8, (bytes8 (entrySet p)).getD k.val 0 ≠ 0) ↔ ∃ e : Fin 64, p e = true := by
  constructor
  · rintro ⟨k, hk⟩
    by_contra hnone
    have hzero : entrySet p = 0 := BitVec.eq_of_getLsbD_eq fun n hn => by
      rw [entrySet_getLsbD p ⟨n, hn⟩, Bool.eq_false_iff.mpr fun h => hnone ⟨_, h⟩]
      exact BitVec.getLsbD_zero.symm
    rw [hzero, bytes8_getD] at hk
    exact hk BitVec.extractLsb'_zero
  · rintro ⟨e, he⟩
    refine ⟨⟨7 - e.val / 8, by omega⟩, fun hzero => ?_⟩
    have hbit := (bytes8_getLsbD (entrySet p) e).trans (entrySet_getLsbD p e)
    rw [hzero, he] at hbit
    simp at hbit

/-! ### The frame -/

theorem TripState.byte_eq (st : TripState) : st.byte = if st = .quiet then 0 else if st = .held then 1 else 2 := by
  cases st <;> rfl

theorem TripState.byte_ne_zero_iff (st : TripState) : st.byte ≠ 0 ↔ st ≠ .quiet := by cases st <;> decide

/-- The two sets of SUMMARY, byte by byte (Table 10-12). -/
theorem summaryPayload_getD (s : State) :
    (∀ k : Fin 8, (summaryPayload s).getD k.val 0 = (bytes8 (entrySet fun e => (s.entry e).state = .done)).getD k.val 0) ∧
    (∀ k : Fin 8, (summaryPayload s).getD (8 + k.val) 0 = (bytes8 (entrySet fun e => (s.entry e).attention)).getD k.val 0) := by
  rw [summaryPayload, List.append_assoc]
  refine ⟨fun k => bytes8_append_getD _ _ k, fun k => ?_⟩
  have hskip : 8 + k.val - (bytes8 (entrySet fun e => (s.entry e).state = .done)).length = k.val :=
    Nat.add_sub_cancel_left 8 k.val
  rw [List.getD_append_right _ _ _ _ (Nat.le_add_right 8 k.val), hskip]
  exact bytes8_append_getD _ _ k

/-- A byte of a payload in its frame (R141). -/
theorem frameOf_getD_payload (code tag : Byte) {payload : List Byte} {k : Nat} (h : k < payload.length) :
    (frameOf code tag payload).getD (3 + k) 0 = payload.getD k 0 := by
  have hshift : 3 + k = k + 1 + 1 + 1 := by omega
  simp only [frameOf, hshift, List.cons_append, List.getD_cons_succ]
  exact List.getD_append _ _ _ _ h

/-- The number of FREE entries fits its byte (R150). -/
theorem State.toNat_freeCount (s : State) : (BitVec.ofNat 8 s.freeCount).toNat = s.freeCount := by
  have hle : s.freeCount ≤ 64 := (List.length_filter_le _ _).trans (List.length_finRange).le
  rw [BitVec.toNat_ofNat, Nat.mod_eq_of_lt (by omega)]

/-- ATTN_N outside reset is low while an entry or a trip source is a member of the attention set (R149). -/
theorem State.attnLow_iff {s : State} (hr : s.inReset = false) : s.attnLow = true ↔
    (∃ e : Fin 64, (s.entry e).attention = true) ∨ s.tripA.state ≠ .quiet ∨ s.tripB.state ≠ .quiet ∨ s.soft.state ≠ .quiet := by
  simp [State.attnLow, State.attention, hr, or_assoc]

/-- Settles O51: the three owners answer OK in every state; the bytes of SUMMARY are those of its sets, its count and the trip
states, and a set has a member where one of its bytes is not 0. -/
theorem summaryAgreesWithAttention : Obligations.SummaryAgreesWithAttention := by
  unfold Obligations.SummaryAgreesWithAttention
  intro s tag hs
  refine ⟨rfl, rfl, rfl, ⟨_, congrArg Host.Outcome.next (request_answered hs rfl), rfl⟩,
    ⟨_, congrArg Host.Outcome.next (request_answered hs rfl), rfl⟩,
    _, congrArg Host.Outcome.next (request_answered hs rfl), rfl, ?_⟩
  obtain ⟨hdone, hattention⟩ := summaryPayload_getD s
  have hbyte : ∀ {k : Nat}, k < 20 → (frameOf 0x00 tag (summaryPayload s)).getD (3 + k) 0 = (summaryPayload s).getD k 0 :=
    fun h => frameOf_getD_payload 0x00 tag h
  change (frameOf 0x00 tag (summaryPayload s)).length = 24 ∧ _
  refine ⟨length_frameOf _ _ _, rfl, fun e => ?_, fun e => ?_, s.toNat_freeCount, s.tripA.state.byte_eq,
    s.tripB.state.byte_eq, s.soft.state.byte_eq, ?_⟩
  · refine (congrArg (BitVec.getLsbD · _) ((hbyte (by omega)).trans (hdone ⟨7 - e.val / 8, by omega⟩))).trans ?_
    exact (bytes8_getLsbD _ e).trans (entrySet_getLsbD _ e)
  · have hplace : 15 - e.val / 8 = 8 + (7 - e.val / 8) := by omega
    rw [hplace]
    refine (congrArg (BitVec.getLsbD · _) ((hbyte (by omega)).trans (hattention ⟨7 - e.val / 8, by omega⟩))).trans ?_
    refine ((bytes8_getLsbD _ e).trans (entrySet_getLsbD _ e)).trans ?_
    simp [Entry.attention]
  · have hset : (∃ k : Fin 8, (frameOf 0x00 tag (summaryPayload s)).getD (3 + (8 + k.val)) 0 ≠ 0) ↔
        ∃ e : Fin 64, (s.entry e).attention = true := by
      rw [← bytes8_entrySet_ne_zero_iff]
      exact exists_congr fun k => not_congr (by rw [hbyte (by omega), hattention])
    rw [State.attnLow_iff hs.1, ← hset, ← TripState.byte_ne_zero_iff, ← TripState.byte_ne_zero_iff,
      ← TripState.byte_ne_zero_iff]
    rfl

end Sys2Proof.Machine
end

section
/-! SUPPORT. The encodings of an entry's record read back (Tables 10-5 and 10-7): no two values share their bytes. -/

namespace Sys2Proof.Machine

set_option Elab.async false

/-! ### Enumerations -/

theorem EntryState.byte_eq (st : EntryState) : st.byte = if st = .free then 0 else if st = .idle then 1
    else if st = .pending then 2 else if st = .running then 3 else if st = .draining then 4 else 5 := by cases st <;> rfl

theorem Phase.byte_eq (p : Phase) : p.byte = if p = .delay then 0 else if p = .active then 1 else 2 := by cases p <;> rfl

theorem outcomeByte_eq (o : Option EntryOutcome) : outcomeByte o = if o = none then 0 else if o = some .completed then 1
    else if o = some .drained then 2 else if o = some .cancelled then 3 else if o = some .tripped then 4
    else if o = some .overrun then 5 else 6 := by
  rcases o with _ | _ | _ | _ | _ | _ | _ <;> rfl

theorem outcomeByte_ne_zero_iff (o : Option EntryOutcome) : outcomeByte o ≠ 0 ↔ o ≠ none := by
  rcases o with _ | _ | _ | _ | _ | _ | _ <;> decide

/-- The state that a byte of QUERY spells. -/
def EntryState.ofByte (b : Byte) : EntryState :=
  if b = 0 then .free else if b = 1 then .idle else if b = 2 then .pending else if b = 3 then .running
  else if b = 4 then .draining else .done

theorem EntryState.byte_injective : Function.Injective EntryState.byte :=
  Function.LeftInverse.injective (g := EntryState.ofByte) fun st => by cases st <;> rfl

/-- The phase that a byte of QUERY spells. -/
def Phase.ofByte (b : Byte) : Phase := if b = 0 then .delay else if b = 1 then .active else .rest

theorem Phase.byte_injective : Function.Injective Phase.byte :=
  Function.LeftInverse.injective (g := Phase.ofByte) fun p => by cases p <;> rfl

/-- The outcome that a byte of QUERY spells. -/
def outcomeOfByte (b : Byte) : Option EntryOutcome :=
  if b = 0 then none else if b = 1 then some .completed else if b = 2 then some .drained else if b = 3 then some .cancelled
  else if b = 4 then some .tripped else if b = 5 then some .overrun else some .chainBroken

theorem outcomeByte_injective : Function.Injective outcomeByte :=
  Function.LeftInverse.injective (g := outcomeOfByte) fun o => by rcases o with _ | _ | _ | _ | _ | _ | _ <;> rfl

theorem yesNoOf_yesNoByte (b : Bool) : yesNoOf (yesNoByte b) = some b := by cases b <;> rfl

theorem yesNoByte_injective : Function.Injective yesNoByte :=
  .of_comp (f := yesNoOf) fun a b h => by simpa [yesNoOf_yesNoByte] using h

/-! ### Optional numbers and flags -/

/-- A number below 255, or 0xFF for none. -/
theorem numberByte_injective {k : Nat} (hk : k ≤ 255) :
    Function.Injective fun x : Option (Fin k) => (x.map fun n => BitVec.ofNat 8 n.val).getD 0xFF := by
  have hlt : ∀ n : Fin k, (BitVec.ofNat 8 n.val).toNat = n.val := fun n =>
    (BitVec.toNat_ofNat _ _).trans (Nat.mod_eq_of_lt (by omega))
  have hnone : ∀ n : Fin k, BitVec.ofNat 8 n.val ≠ 0xFF := fun n h => by
    have hn : n.val = 255 := (hlt n).symm.trans (congrArg BitVec.toNat h)
    omega
  rintro (_ | m) (_ | n) h
  · rfl
  · exact absurd h.symm (hnone n)
  · exact absurd h (hnone m)
  · exact congrArg some (Fin.ext ((hlt m).symm.trans ((congrArg BitVec.toNat h).trans (hlt n))))

/-- Each bit of a byte of flags is its flag. -/
theorem flagByte_getLsbD (b0 b1 b2 b3 : Bool) :
    (flagByte b0 b1 b2 b3).getLsbD 0 = b0 ∧ (flagByte b0 b1 b2 b3).getLsbD 1 = b1 ∧
      (flagByte b0 b1 b2 b3).getLsbD 2 = b2 ∧ (flagByte b0 b1 b2 b3).getLsbD 3 = b3 := by
  revert b0 b1 b2 b3
  decide

theorem flagByte_inj {b0 b1 b2 b3 c0 c1 c2 c3 : Bool} (h : flagByte b0 b1 b2 b3 = flagByte c0 c1 c2 c3) :
    b0 = c0 ∧ b1 = c1 ∧ b2 = c2 ∧ b3 = c3 := by
  obtain ⟨hb0, hb1, hb2, hb3⟩ := flagByte_getLsbD b0 b1 b2 b3
  obtain ⟨hc0, hc1, hc2, hc3⟩ := flagByte_getLsbD c0 c1 c2 c3
  rw [h] at hb0 hb1 hb2 hb3
  exact ⟨hb0.symm.trans hc0, hb1.symm.trans hc1, hb2.symm.trans hc2, hb3.symm.trans hc3⟩

theorem EntryFlags.byte_injective : Function.Injective EntryFlags.byte := fun f g h => by
  obtain ⟨h0, h1, h2, -⟩ := flagByte_inj h
  exact (EntryFlags.mk.injEq ..).mpr ⟨h0, h1, h2⟩

/-- An optional field is told by its presence bit and its value, 0 where it is absent. -/
theorem eq_of_presence {α : Type} {x y : Option α} {z : α} (h : x.isSome = y.isSome) (hv : x.getD z = y.getD z) : x = y := by
  rcases x with _ | a <;> rcases y with _ | b
  · rfl
  · cases h
  · cases h
  · exact congrArg some hv

/-! ### The strobe and the start -/

theorem StrobePoint.number_eq (p : StrobePoint) : p.number = if p = .start then 0 else if p = .active then 1 else 2 := by
  cases p <;> rfl

theorem StrobePoint.number_le (p : StrobePoint) : p.number ≤ 2 := by cases p <;> decide

theorem toNat_strobeByte (u : StrobeUse) : (strobeByte (some u)).toNat = 128 + 16 * u.point.number + u.line.val := by
  have hpoint := u.point.number_le
  have hline := u.line.isLt
  exact (BitVec.toNat_ofNat _ _).trans (Nat.mod_eq_of_lt (by omega))

/-- The part reads the byte of a strobe as DEFINE carries it (Table 10-5). -/
theorem strobeOf_strobeByte (u : Option StrobeUse) : strobeOf (strobeByte u) = some u := by
  rcases u with _ | ⟨line, point⟩
  · rfl
  · revert line
    cases point <;> decide

theorem strobeByte_injective : Function.Injective strobeByte :=
  .of_comp (f := strobeOf) fun a b h => by simpa [strobeOf_strobeByte] using h

/-- The start that start fields record, with the number of a predecessor in range. -/
def StartFields.start : StartFields → Option Start
  | .atTime t late => some (.atTime t late)
  | .onTrigger n m r => some (.onTrigger n m r)
  | .after b => (entryOf b).map .after

/-- The start that a kind and a start block of QUERY spell, read as SCHEDULE reads them. -/
def readStart (kind : Byte) : List Byte → Option Start
  | [b0, b1, b2, b3, b4] => (startFieldsOf kind ⟨b0, b1, b2, b3, b4⟩).bind StartFields.start
  | _ => none

/-- A ONCE start records no policy but IGNORE (R24). -/
abbrev OnceIgnores (start : Option Start) : Prop :=
  ∀ n : Fin 8, start ≠ some (.onTrigger n .once .restart) ∧ start ≠ some (.onTrigger n .once .holdOne)

/-- The part reads the bytes of a start as SCHEDULE carries them (Table 10-7). -/
theorem readStart_bytes {start : Option Start} (h : OnceIgnores start) :
    readStart (startKindByte start) (startBlockBytes start) = start := by
  rcases start with _ | ⟨t, late⟩ | ⟨n, m, r⟩ | p
  · rfl
  · have hlate : (yesNoByte late).toNat ≤ 1 := by cases late <;> decide
    refine (congrArg (·.bind StartFields.start) (startFieldsOf_atTime t hlate)).trans ?_
    cases late <;> rfl
  · have hread : ∀ {mode policy : Byte} (hok : mode = 0 ∨ (mode = 1 ∧ policy.toNat ≤ 2)),
        readStart 2 [BitVec.ofNat 8 n.val, mode, policy, 0, 0] = _ := fun hok =>
      congrArg (·.bind StartFields.start) (startFieldsOf_onTrigger n 0 0 hok)
    cases m with
    | once =>
      cases r with
      | ignore => exact hread (.inl rfl)
      | restart => exact absurd rfl (h n).1
      | holdOne => exact absurd rfl (h n).2
    | every => cases r <;> exact hread (.inr ⟨rfl, by decide⟩)
  · exact congrArg (·.map Start.after) (entryOf_ofNat p)

end Sys2Proof.Machine
end

section
/-! CERTIFICATE. QUERY (R33, R161): the place of each field in its 59 bytes, and the record that they tell. -/

namespace Sys2Proof.Machine

set_option Elab.async false

/-- The bytes of QUERY before the start block (Table 10-10, bytes 0 to 17). -/
def queryHead (e : Fin 64) (r : Entry) : List Byte :=
  [BitVec.ofNat 8 e.val, r.state.byte, r.phase.byte, laneByte r.prog.lane]
    ++ bytes3 r.prog.delay ++ bytes3 r.prog.width ++ bytes3 r.prog.period ++ bytes2 r.prog.count
    ++ [strobeByte r.prog.strobe, yesNoByte r.prog.notify, startKindByte r.start]

/-- The bytes of QUERY after the start block (Table 10-10, bytes 23 to 58). -/
def queryTail (r : Entry) : List Byte :=
  bytes4 r.cycleStart ++ bytes4 r.nextInstant ++ bytes2 r.cyclesDone ++ bytes2 r.runsCompleted
    ++ [r.missedTriggers, r.worstSkew, r.flags.byte, r.presence]
    ++ bytes3 (r.staged.delay.getD 0) ++ bytes3 (r.staged.width.getD 0) ++ bytes3 (r.staged.period.getD 0)
    ++ bytes4 (r.heldTrigger.getD 0) ++ [entryByte r.predecessor, entryByte r.successor, outcomeByte r.outcome]
    ++ bytes4 (r.retiredAt.getD 0)

/-- The bytes of QUERY, with the five of its start block written out. -/
theorem queryPayload_eq (e : Fin 64) (r : Entry) : ∃ x0 x1 x2 x3 x4, startBlockBytes r.start = [x0, x1, x2, x3, x4] ∧
    queryPayload e r = queryHead e r ++ [x0, x1, x2, x3, x4] ++ queryTail r := by
  have hparts : queryPayload e r = queryHead e r ++ startBlockBytes r.start ++ queryTail r := by
    unfold queryPayload queryHead queryTail
    simp only [List.append_assoc]
  rw [hparts]
  rcases r.start with _ | ⟨t, late⟩ | ⟨n, m, p⟩ | p <;> exact ⟨_, _, _, _, _, rfl, rfl⟩

/-- Table 10-10: what each byte, or group of bytes, of QUERY holds of a record. -/
structure QueryPlaces (b : Nat → Byte) (e : Fin 64) (r : Entry) : Prop where
  entry : b 0 = BitVec.ofNat 8 e.val
  state : b 1 = r.state.byte
  phase : b 2 = r.phase.byte
  lane : b 3 = laneByte r.prog.lane
  delay : ofBytes3 (b 4) (b 5) (b 6) = r.prog.delay
  width : ofBytes3 (b 7) (b 8) (b 9) = r.prog.width
  period : ofBytes3 (b 10) (b 11) (b 12) = r.prog.period
  count : ofBytes2 (b 13) (b 14) = r.prog.count
  strobe : b 15 = strobeByte r.prog.strobe
  notify : b 16 = yesNoByte r.prog.notify
  startKind : b 17 = startKindByte r.start
  startBlock : [b 18, b 19, b 20, b 21, b 22] = startBlockBytes r.start
  cycleStart : ofBytes4 (b 23) (b 24) (b 25) (b 26) = r.cycleStart
  nextInstant : ofBytes4 (b 27) (b 28) (b 29) (b 30) = r.nextInstant
  cyclesDone : ofBytes2 (b 31) (b 32) = r.cyclesDone
  runsCompleted : ofBytes2 (b 33) (b 34) = r.runsCompleted
  missedTriggers : b 35 = r.missedTriggers
  worstSkew : b 36 = r.worstSkew
  flags : b 37 = r.flags.byte
  presence : b 38 = r.presence
  stagedDelay : ofBytes3 (b 39) (b 40) (b 41) = r.staged.delay.getD 0
  stagedWidth : ofBytes3 (b 42) (b 43) (b 44) = r.staged.width.getD 0
  stagedPeriod : ofBytes3 (b 45) (b 46) (b 47) = r.staged.period.getD 0
  heldTrigger : ofBytes4 (b 48) (b 49) (b 50) (b 51) = r.heldTrigger.getD 0
  predecessor : b 52 = entryByte r.predecessor
  successor : b 53 = entryByte r.successor
  outcome : b 54 = outcomeByte r.outcome
  retiredAt : ofBytes4 (b 55) (b 56) (b 57) (b 58) = r.retiredAt.getD 0

/-- The bytes of QUERY stand at the places of Table 10-10 (R161). -/
theorem queryPayload_places (e : Fin 64) (r : Entry) : QueryPlaces (fun k => (queryPayload e r).getD k 0) e r := by
  obtain ⟨x0, x1, x2, x3, x4, hblock, hpayload⟩ := queryPayload_eq e r
  simp only [queryHead, queryTail, bytes2, bytes3, bytes4, List.cons_append, List.nil_append] at hpayload
  rw [hpayload]
  exact {
    entry := rfl, state := rfl, phase := rfl, lane := rfl
    delay := ofBytes3_extract _, width := ofBytes3_extract _, period := ofBytes3_extract _, count := ofBytes2_extract _
    strobe := rfl, notify := rfl, startKind := rfl, startBlock := hblock.symm
    cycleStart := ofBytes4_extract _, nextInstant := ofBytes4_extract _
    cyclesDone := ofBytes2_extract _, runsCompleted := ofBytes2_extract _
    missedTriggers := rfl, worstSkew := rfl, flags := rfl, presence := rfl
    stagedDelay := ofBytes3_extract (r.staged.delay.getD 0), stagedWidth := ofBytes3_extract (r.staged.width.getD 0)
    stagedPeriod := ofBytes3_extract (r.staged.period.getD 0), heldTrigger := ofBytes4_extract (r.heldTrigger.getD 0)
    predecessor := rfl, successor := rfl, outcome := rfl
    retiredAt := ofBytes4_extract (r.retiredAt.getD 0) }

/-- Bytes at these places tell one lawful record from every other (R15, R24, R161). -/
theorem QueryPlaces.unique {b : Nat → Byte} {e : Fin 64} {r r' : Entry} (h : QueryPlaces b e r) (h' : QueryPlaces b e r')
    (hr : r.PartsLawful) (hr' : r'.PartsLawful) : r = r' := by
  obtain ⟨-, -, -, -, -, hretired, -, honce⟩ := hr
  obtain ⟨-, -, -, -, -, hretired', -, honce'⟩ := hr'
  have hstate : r.state = r'.state := EntryState.byte_injective (h.state.symm.trans h'.state)
  have hstart : r.start = r'.start := by
    rw [← readStart_bytes honce, ← readStart_bytes honce', ← h.startKind, ← h'.startKind, ← h.startBlock, ← h'.startBlock]
  have hprog : r.prog = r'.prog := (Programme.mk.injEq ..).mpr
    ⟨numberByte_injective (by decide) (h.lane.symm.trans h'.lane), h.delay.symm.trans h'.delay, h.width.symm.trans h'.width,
      h.period.symm.trans h'.period, h.count.symm.trans h'.count, strobeByte_injective (h.strobe.symm.trans h'.strobe),
      yesNoByte_injective (h.notify.symm.trans h'.notify)⟩
  obtain ⟨hdelay, hwidth, hperiod, hheld⟩ := flagByte_inj (h.presence.symm.trans h'.presence)
  have hstaged : r.staged = r'.staged := (Staged.mk.injEq ..).mpr
    ⟨eq_of_presence hdelay (h.stagedDelay.symm.trans h'.stagedDelay),
      eq_of_presence hwidth (h.stagedWidth.symm.trans h'.stagedWidth),
      eq_of_presence hperiod (h.stagedPeriod.symm.trans h'.stagedPeriod)⟩
  have hpresent : r.retiredAt.isSome = r'.retiredAt.isSome := by
    rw [Bool.eq_iff_iff, Option.isSome_iff_ne_none, Option.isSome_iff_ne_none, hretired, hretired', hstate]
  exact (Entry.mk.injEq ..).mpr
    ⟨hstate, hprog, hstart, Phase.byte_injective (h.phase.symm.trans h'.phase), h.cycleStart.symm.trans h'.cycleStart,
      h.nextInstant.symm.trans h'.nextInstant, h.cyclesDone.symm.trans h'.cyclesDone,
      h.runsCompleted.symm.trans h'.runsCompleted, eq_of_presence hheld (h.heldTrigger.symm.trans h'.heldTrigger), hstaged,
      numberByte_injective (by decide) (h.predecessor.symm.trans h'.predecessor),
      numberByte_injective (by decide) (h.successor.symm.trans h'.successor),
      h.missedTriggers.symm.trans h'.missedTriggers, h.worstSkew.symm.trans h'.worstSkew,
      EntryFlags.byte_injective (h.flags.symm.trans h'.flags),
      outcomeByte_injective (h.outcome.symm.trans h'.outcome),
      eq_of_presence hpresent (h.retiredAt.symm.trans h'.retiredAt)⟩

/-- Only the first byte of QUERY tells the entry's number. -/
theorem queryPayload_eq_cons (r : Entry) : ∃ rest, ∀ e : Fin 64, queryPayload e r = BitVec.ofNat 8 e.val :: rest := by
  unfold queryPayload
  simp only [List.cons_append]
  exact ⟨_, fun _ => rfl⟩

/-- The bytes of a FREE record after its number and state: 0xFF for each absent number, and 0 for all else (Table 2-1). -/
theorem queryPayload_free (e : Fin 64) : ∀ n : Fin 59, 2 ≤ n.val → (queryPayload e Entry.free).getD n.val 0 =
    if n.val = 3 ∨ n.val = 52 ∨ n.val = 53 then 0xFF else 0 := by
  have hclosed : ∀ n : Fin 59, 2 ≤ n.val → (queryPayload 0 Entry.free).getD n.val 0 =
      if n.val = 3 ∨ n.val = 52 ∨ n.val = 53 then 0xFF else 0 := by decide +kernel
  rintro ⟨_ | k, hk⟩ h2
  · cases h2
  · obtain ⟨rest, hrest⟩ := queryPayload_eq_cons Entry.free
    have hzero := hclosed ⟨k + 1, hk⟩ h2
    rw [hrest] at hzero ⊢
    exact hzero

/-- Settles O45: the bytes of the record stand at their places, and those places tell a lawful record from every other. -/
theorem queryReportsTheWholeRecord : Obligations.QueryReportsTheWholeRecord := by
  unfold Obligations.QueryReportsTheWholeRecord
  intro s tag e i r' hs hi
  dsimp only
  generalize hr : s.entry i = r
  have hexec : exec (.query tag e) s = .next (s.answered (.query tag e) ⟨.ok, queryPayload i r⟩) :=
    hr ▸ congrArg Host.Outcome.next (request_answered hs (withEntry_of_eq hi s _))
  have h := queryPayload_places i r
  refine ⟨hexec, length_queryPayload i r, h.entry.trans (ofNat_of_eq hi), h.state.trans r.state.byte_eq,
    h.phase.trans r.phase.byte_eq, ?_, h.delay, h.width, h.period, h.count, fun hnone => ?_, fun u hu => ?_, h.notify, ?_,
    h.cycleStart, h.nextInstant, h.cyclesDone, h.runsCompleted, h.missedTriggers, h.worstSkew,
    h.flags.trans (flagByte_three_eq _ _ _), h.presence.trans (flagByte_eq _ _ _ _), h.stagedDelay, h.stagedWidth,
    h.stagedPeriod, h.heldTrigger, ?_, ?_, h.outcome.trans (outcomeByte_eq _), h.retiredAt, fun hl => ?_, fun hl hfree => ?_,
    fun hl hl' heq => ?_⟩
  · exact h.lane.trans (congrArg (·.getD 0xFF) (Option.map_map (BitVec.ofNat 8) Fin.val _).symm)
  · exact h.strobe.trans (by rw [hnone]; rfl)
  · rw [← StrobePoint.number_eq, ← toNat_strobeByte, ← Option.mem_def.mp hu]
    exact congrArg BitVec.toNat h.strobe
  · refine (congrArg₂ List.cons h.startKind h.startBlock).trans ?_
    rcases r.start with _ | ⟨t, late⟩ | ⟨n, mode, policy⟩ | p
    · rfl
    · rfl
    · cases mode <;> cases policy <;> rfl
    · rfl
  · exact h.predecessor.trans (congrArg (·.getD 0xFF) (Option.map_map (BitVec.ofNat 8) Fin.val _).symm)
  · exact h.successor.trans (congrArg (·.getD 0xFF) (Option.map_map (BitVec.ofNat 8) Fin.val _).symm)
  · obtain ⟨-, -, -, -, houtcome, hretired, -⟩ := hl
    rw [hretired, ← houtcome, ← outcomeByte_ne_zero_iff]
    exact not_congr (Eq.congr_left h.outcome.symm)
  · obtain ⟨hcleared, -⟩ := hl
    rw [hcleared hfree]
    exact queryPayload_free i
  · have h' := queryPayload_places i r'
    rw [← heq] at h'
    exact h.unique h' hl hl'

end Sys2Proof.Machine
end

section
/-! SUPPORT. The step at a queue that holds a command (log entries 1 and 16). -/

namespace Sys2Proof.Machine

/-- Of two queues set one after the other, the last stands. -/
@[simp] theorem State.withPending_withPending (s : State) (q q' : List Instr) :
    (s.withPending q).withPending q' = s.withPending q' := rfl

/-- A part whose queue holds a command runs the front one, on the rest of the queue. -/
theorem step_of_pending_cons {s : State} {c : Instr} {rest : List Instr} (hq : s.pending = c :: rest) :
    step s = exec c (s.withPending rest) := by
  unfold step
  rw [hq]

/-- Settles O1: the queue set last is the one the step takes its command from, and its rest replaces it. -/
theorem stepTakesTheFrontCommand : Obligations.StepTakesTheFrontCommand := by
  unfold Obligations.StepTakesTheFrontCommand
  intro c rest s
  calc step (s.withPending (c :: rest))
      = exec c ((s.withPending (c :: rest)).withPending rest) := step_of_pending_cons (s.withPending_pending (c :: rest))
    _ = exec c (s.withPending rest) := by rw [State.withPending_withPending]

end Sys2Proof.Machine
end
